-- ==== Sys2Proof/Word.lean ====
section
/-! DEFINITION. The word types of the device and the lane vector. -/

namespace Sys2Proof

/-- A byte of memory, scratchpad or tile store. -/
abbrev Byte := BitVec 8

/-- A 32-bit register, mask or instruction word. -/
abbrev Word := BitVec 32

/-- A 64-bit value: a program counter, an address held in a register pair, a control register. -/
abbrev Dword := BitVec 64

/-- One physical vector register: a 32-bit word for each of the 32 lanes (R116). -/
abbrev Lanes := Vector Word 32

end Sys2Proof
end

