-- ==== Sys2Proof/Machine/Bits.lean ====
section
/-! DEFINITION. Bit fields, lane masks and byte order. -/

namespace Sys2Proof.Machine

/-- `f` at every lane. -/
def perLane (f : Nat → Word) : Lanes := Vector.ofFn (fun i => f i.val)

/-- Lane `L` of a vector; zero past lane 31. -/
def lane (v : Lanes) (L : Nat) : Word := v.getD L 0

/-- The low `n` bits of a mask chosen bit by bit. -/
def maskUpTo (p : Nat → Bool) : (n : Nat) → BitVec n
  | 0 => 0#0
  | n + 1 => BitVec.cons (p n) (maskUpTo p n)

/-- The lane mask of the lanes that satisfy `p`. -/
def maskOf (p : Nat → Bool) : Word := maskUpTo p 32

/-- The lanes of a mask, ascending. -/
def lanesOf (m : Word) : List Nat := (List.range 32).filter (fun L => m.getLsbD L)

/-- The lowest lane of a mask; 32 for the empty mask. -/
def lowestLane (m : Word) : Nat := ((lanesOf m).head?).getD 32

/-- `a` in the lanes of `m`, `b` elsewhere. -/
def mergeLanes (m : Word) (a b : Lanes) : Lanes :=
  perLane (fun L => if m.getLsbD L then lane a L else lane b L)

/-- The number of one bits among the low `n`. -/
def onesBelow (p : Nat → Bool) : Nat → Nat
  | 0 => 0
  | n + 1 => onesBelow p n + (if p n then 1 else 0)

/-- The number of one bits. -/
def popCount {w : Nat} (x : BitVec w) : Nat := onesBelow x.getLsbD w

/-- The number of leading zeros of the `n` low bits. -/
def leadingZeros (p : Nat → Bool) : Nat → Nat
  | 0 => 0
  | n + 1 => if p n then 0 else leadingZeros p n + 1

/-- A condition as a word. -/
def boolWord (b : Bool) : Word := if b then 1 else 0

/-- The 64-bit value of an even-odd pair: the even register holds the low half (R2). -/
def pairOf (lo hi : Word) : Dword := hi ++ lo

/-- The low and high halves of a 64-bit value. -/
def lowHalf (x : Dword) : Word := x.extractLsb' 0 32
def highHalf (x : Dword) : Word := x.extractLsb' 32 32

/-- The least significant `n` bytes of a number, lowest address first (R2). -/
def bytesLE : Nat → Nat → List Byte
  | 0, _ => []
  | n + 1, x => BitVec.ofNat 8 x :: bytesLE n (x / 256)

/-- The number that bytes hold, lowest address first (R2). -/
def natLE : List Byte → Nat
  | [] => 0
  | b :: bs => b.toNat + 256 * natLE bs

/-- The bits `[lo + n - 1 : lo]` of a number. -/
def field (x lo n : Nat) : Nat := x / 2 ^ lo % 2 ^ n

/-- `x` of `w` bits read as two's complement. -/
def signedOf (w x : Nat) : Int := if 2 * (x % 2 ^ w) < 2 ^ w then ((x % 2 ^ w : Nat) : Int) else (x % 2 ^ w : Nat) - 2 ^ w

/-- An exact integer modulo `2 ^ w`. -/
def wrapTo (w : Nat) (x : Int) : Nat := (x % (2 ^ w : Nat)).toNat

/-- An integer held within `[lo, hi]`. -/
def clampInt (x lo hi : Int) : Int := min (max x lo) hi

/-- A length rounded up to a multiple of `m`. -/
def roundUp (x m : Nat) : Nat := (x + m - 1) / m * m

/-- Numbers without repeats, in the order of their first places. -/
def distinct (xs : List Nat) : List Nat := xs.foldl (fun acc x => if acc.contains x then acc else acc ++ [x]) []

/-- Insertion by a key, ascending, the new element replacing one of the same key. -/
def insertBy {α : Type} (key : α → Nat) (a : α) : List α → List α
  | [] => [a]
  | b :: bs => if key a < key b then a :: b :: bs else if key a = key b then a :: bs else b :: insertBy key a bs

/-- `a` placed before the first element whose key is not smaller. -/
def insertStable {α : Type} (key : α → Nat) (a : α) : List α → List α
  | [] => [a]
  | b :: bs => if key b < key a then b :: insertStable key a bs else a :: b :: bs

/-- Stable insertion sort by a key, ascending. -/
def sortBy {α : Type} (key : α → Nat) : List α → List α
  | [] => []
  | a :: as => insertStable key a (sortBy key as)

/-- The list with element `n` replaced, when it exists. -/
def setAt {α : Type} : List α → Nat → α → List α
  | [], _, _ => []
  | _ :: as, 0, b => b :: as
  | a :: as, n + 1, b => a :: setAt as n b

end Sys2Proof.Machine
end

