-- ==== Sys2Proof/Machine/Exact.lean ====
section
/-! DEFINITION. Exact numbers and elementary functions. A rational holds every exact value of the format chapter; an
irrational value is held by a rational that stands on the same side of every multiple of `2 ^ -k` as the value itself
(`sticky`), with `k` past every point at which a rounding decides (R83). -/

namespace Sys2Proof.Machine

/-- A rational number `num / den` with `den > 0`. -/
structure Rat' where
  num : Int
  den : Nat
  deriving DecidableEq, Repr

namespace Rat'

def ofInt (n : Int) : Rat' := ⟨n, 1⟩

/-- `n * 2 ^ e`. -/
def scaled (n : Int) (e : Int) : Rat' :=
  if 0 ≤ e then ⟨n * (2 ^ e.toNat : Nat), 1⟩ else ⟨n, 2 ^ (-e).toNat⟩

def neg (a : Rat') : Rat' := ⟨-a.num, a.den⟩
def abs (a : Rat') : Rat' := ⟨a.num.natAbs, a.den⟩
def add (a b : Rat') : Rat' :=
  if a.den = b.den then ⟨a.num + b.num, a.den⟩ else ⟨a.num * b.den + b.num * a.den, a.den * b.den⟩
def sub (a b : Rat') : Rat' := a.add b.neg
def mul (a b : Rat') : Rat' := ⟨a.num * b.num, a.den * b.den⟩

/-- `a / b` for `b ≠ 0`. -/
def div (a b : Rat') : Rat' :=
  if b.num < 0 then ⟨-(a.num * b.den), a.den * b.num.natAbs⟩ else ⟨a.num * b.den, a.den * b.num.natAbs⟩

def isZero (a : Rat') : Bool := a.num == 0
def isNeg (a : Rat') : Bool := decide (a.num < 0)
def lt (a b : Rat') : Bool := decide (a.num * b.den < b.num * a.den)
def le (a b : Rat') : Bool := decide (a.num * b.den ≤ b.num * a.den)
def eq (a b : Rat') : Bool := a.num * b.den == b.num * a.den

/-- `a * 2 ^ e`. -/
def scale (a : Rat') (e : Int) : Rat' :=
  if 0 ≤ e then ⟨a.num * (2 ^ e.toNat : Nat), a.den⟩ else ⟨a.num, a.den * 2 ^ (-e).toNat⟩

def floor (a : Rat') : Int := a.num / (a.den : Int)

/-- `floor (log2 a)` for `a > 0`. -/
def log2 (a : Rat') : Int :=
  let k : Int := (Nat.log2 a.num.natAbs : Int) - (Nat.log2 a.den : Int)
  if (scaled 1 k).le a then k else k - 1

end Rat'

/-- The value on `2 ^ -(k + 1)` that decides like an inexact value whose floor on `2 ^ -k` is `n`. -/
def sticky (n : Int) (k : Int) : Rat' := Rat'.scaled (2 * n + 1) (-(k + 1))

/-- The integer square root, bit by bit from bit `b - 1` down; `r` holds the bits found. -/
def isqrtFrom (n : Nat) : Nat → Nat → Nat
  | 0, r => r
  | b + 1, r => if (r + 2 ^ b) * (r + 2 ^ b) ≤ n then isqrtFrom n b (r + 2 ^ b) else isqrtFrom n b r

def isqrt (n : Nat) : Nat := isqrtFrom n (Nat.log2 n / 2 + 1) 0

/-- The square root of `a ≥ 0`, exact when it lies on `2 ^ -k` and sticky there otherwise. -/
def sqrtAt (a : Rat') (k : Int) : Rat' :=
  let x := a.scale (2 * k)
  let n := isqrt x.floor.toNat
  if (Rat'.ofInt (n * n : Nat)).eq x then Rat'.scaled n (-k) else sticky n k

/-! ### Fixed-point series: every value below is an integer on `2 ^ -p`, with an error far below `2 ^ (64 - p)`. -/

/-- `sum over i of t^(2i+1) / (2i+1)`, with alternating signs when `alt`; `pw` is the power reached. -/
def atanSeries (p : Nat) (alt : Bool) (t2 : Int) : Nat → Nat → Int → Int → Int
  | 0, _, _, acc => acc
  | n + 1, i, pw, acc =>
    let term := pw / ((2 * i + 1 : Nat) : Int)
    atanSeries p alt t2 n (i + 1) (pw * t2 / (2 ^ p : Nat)) (if alt && i % 2 == 1 then acc - term else acc + term)

/-- `ln m` for `1 ≤ m < 2`, both on `2 ^ -p`: twice the inverse hyperbolic tangent of `(m - 1) / (m + 1)`. -/
def lnFixed (p : Nat) (m : Int) : Int :=
  let one : Int := (2 ^ p : Nat)
  let t := (m - one) * one / (m + one)
  2 * atanSeries p false (t * t / one) (p / 3 + 2) 0 t 0

/-- `ln 2 = 2 atanh (1/3)`. -/
def ln2Fixed (p : Nat) : Int :=
  let one : Int := (2 ^ p : Nat)
  let t := one / 3
  2 * atanSeries p false (t * t / one) (p / 3 + 2) 0 t 0

/-- `pi = 16 atan (1/5) - 4 atan (1/239)`. -/
def piFixed (p : Nat) : Int :=
  let one : Int := (2 ^ p : Nat)
  let a := one / 5
  let b := one / 239
  16 * atanSeries p true (a * a / one) (p / 4 + 2) 0 a 0 - 4 * atanSeries p true (b * b / one) (p / 4 + 2) 0 b 0

/-- `sum over i of t^i / i!`. -/
def expSeries (p : Nat) (t : Int) : Nat → Nat → Int → Int → Int
  | 0, _, _, acc => acc
  | n + 1, i, term, acc =>
    expSeries p t n (i + 1) (term * t / (2 ^ p : Nat) / ((i + 1 : Nat) : Int)) (acc + term)

def expFixed (p : Nat) (t : Int) : Int := expSeries p t (p + 8) 0 (2 ^ p : Nat) 0

/-- `sum over i of (-1)^i t^(2i+b) / (2i+b)!` for `b` 0 (cosine) or 1 (sine). -/
def circSeries (p : Nat) (t2 : Int) : Nat → Nat → Int → Int → Int
  | 0, _, _, acc => acc
  | n + 1, i, term, acc =>
    circSeries p t2 n (i + 2) (-(term * t2 / (2 ^ p : Nat) / (((i + 1) * (i + 2) : Nat) : Int))) (acc + term)

def cosFixed (p : Nat) (t : Int) : Int :=
  circSeries p (t * t / (2 ^ p : Nat)) (p / 4 + 8) 0 (2 ^ p : Nat) 0

def sinFixed (p : Nat) (t : Int) : Int :=
  circSeries p (t * t / (2 ^ p : Nat)) (p / 4 + 8) 1 t 0

/-- The sticky value on `2 ^ -k` of an approximation on `2 ^ -p`, `k + 100 ≤ p`; the exact value is irrational. -/
def fixedSticky (p : Nat) (x : Int) (k : Nat) : Rat' := sticky (x / (2 ^ (p - k) : Nat)) k

/-- A rational on `2 ^ -p`, rounded down. -/
def toFixed (p : Nat) (a : Rat') : Int := (a.scale p).floor

/-- `2 ^ a` for binary32 decisions (R189); exact for an integer `a`. -/
def exp2Exact (a : Rat') : Rat' :=
  let n := a.floor
  let f := a.sub (Rat'.ofInt n)
  if (Rat'.ofInt 200).lt a then sticky 1 (-200)
  else if a.lt (Rat'.ofInt (-200)) then sticky 1 200
  else if f.isZero then Rat'.scaled 1 n
  else if a.abs.lt (Rat'.scaled 1 (-40)) then (Rat'.ofInt 1).add (a.scale (-1))
  else
    let p := 240
    (fixedSticky p (expFixed p (toFixed p f * ln2Fixed p / (2 ^ p : Nat))) 80).scale n

/-- `log2 a` for `a > 0` and binary32 decisions (R189); exact for a power of two. -/
def log2Exact (a : Rat') : Rat' :=
  let e := a.log2
  let m := a.scale (-e)
  if m.eq (Rat'.ofInt 1) then Rat'.ofInt e
  else
    let p := 240
    (Rat'.ofInt e).add (fixedSticky p (lnFixed p (toFixed p m) * (2 ^ p : Nat) / ln2Fixed p) 80)

/-- The sine and the cosine of `a`, reduced exactly by multiples of `pi / 2`: quadrant and remainder on `2 ^ -p`. -/
def reduceHalfPi (p : Nat) (a : Rat') : Nat × Int :=
  let h := piFixed p / 2
  let x := toFixed p a
  ((x / h % 4).toNat, x % h)

/-- `sin a` for binary32 decisions (R189); `a ≠ 0`. -/
def sinExact (a : Rat') : Rat' :=
  if a.abs.lt (Rat'.scaled 1 (-20)) then a.sub (a.scale (-40))
  else
    let p := 420
    let (q, r) := reduceHalfPi p a
    let v := match q with
      | 0 => sinFixed p r
      | 1 => cosFixed p r
      | 2 => -sinFixed p r
      | _ => -cosFixed p r
    fixedSticky p v 120

/-- `cos a` for binary32 decisions (R189); `a ≠ 0`. -/
def cosExact (a : Rat') : Rat' :=
  if a.abs.lt (Rat'.scaled 1 (-16)) then (Rat'.ofInt 1).sub (Rat'.scaled 1 (-34))
  else
    let p := 420
    let (q, r) := reduceHalfPi p a
    let v := match q with
      | 0 => cosFixed p r
      | 1 => -sinFixed p r
      | 2 => -cosFixed p r
      | _ => sinFixed p r
    fixedSticky p v 120

/-- `tanh a` for binary32 decisions (R189); `a ≠ 0`. -/
def tanhExact (a : Rat') : Rat' :=
  let m := a.abs
  let r :=
    if m.lt (Rat'.scaled 1 (-20)) then m.sub (m.scale (-42))
    else if (Rat'.ofInt 20).lt m then (Rat'.ofInt 1).sub (Rat'.scaled 1 (-40))
    else
      let p := 420
      let e := expFixed p (2 * toFixed p m)
      let one : Int := (2 ^ p : Nat)
      fixedSticky p ((e - one) * one / (e + one)) 80
  if a.isNeg then r.neg else r

end Sys2Proof.Machine
end

