-- ==== Sys2Proof/Machine/Flags.lean ====
section
/-! DEFINITION. Format entries, values, rounding, range and the floating-point flags (R72 to R93). -/

namespace Sys2Proof.Machine

/-! ### Flags (R86) -/

abbrev FpFlags := BitVec 5

def flagNV : FpFlags := 0x01
def flagDZ : FpFlags := 0x02
def flagOF : FpFlags := 0x04
def flagUF : FpFlags := 0x08
def flagNX : FpFlags := 0x10

/-! ### Entries (R72 to R74) -/

/-- The fields of an entry word (R72), with the container width and block size in bits and elements. -/
structure Fmt where
  signed : Bool
  ew     : Nat
  fw     : Nat
  bias   : Int
  policy : Nat
  scaled : Nat
  block  : Nat
  width  : Nat
  deriving DecidableEq, Repr

/-- The container width that CW names (R72). -/
def containerWidth (cw : Nat) : Nat :=
  match cw with
  | 0 => 4 | 1 => 6 | 2 => 8 | 3 => 16 | 4 => 32 | 5 => 64 | _ => 0

def Fmt.ofWord (w : Word) : Fmt :=
  let x := w.toNat
  { signed := w.getLsbD 0, ew := field x 1 4, fw := field x 5 6, bias := signedOf 12 (field x 11 12),
    policy := field x 23 2, scaled := field x 25 2, block := 16 * 2 ^ field x 27 2,
    width := containerWidth (field x 29 3) }

/-- The status that `FMTCHK` returns (R97); zero for a legal word (R73). -/
def fmtStatus (w : Word) : Word :=
  let x := w.toNat
  let cw := field x 29 3
  let b0 := cw < 6 && (field x 0 1 + field x 1 4 + field x 5 6 != containerWidth cw)
  let b1 := cw ≥ 6 || field x 27 2 == 3 || field x 25 2 == 3 || field x 23 2 == 3 || field x 5 6 > 52 ||
    field x 1 4 > 11 || (field x 27 2 != 0 && field x 25 2 == 0)
  let b2 := cw == 4 && w != 0x8003FAF1
  let b3 := cw == 5 && w != 0xA01FFE97
  maskOf (fun i => match i with | 0 => b0 | 1 => b1 | 2 => b2 | 3 => b3 | _ => false)

/-- A legal word (R73). -/
def fmtLegal (w : Word) : Bool := fmtStatus w == 0

/-- The fixed entries `f0` to `f5` (R74). -/
def fixedEntry (n : Nat) : Word :=
  match n with
  | 0 => 0xA01FFE97 | 1 => 0x8003FAF1 | 2 => 0x6000794B | 3 => 0x6003F8F1 | 4 => 0x40803869 | _ => 0x4000784B

def binary64 : Fmt := Fmt.ofWord (fixedEntry 0)
def binary32 : Fmt := Fmt.ofWord (fixedEntry 1)
def binary16 : Fmt := Fmt.ofWord (fixedEntry 2)
def bfloat16 : Fmt := Fmt.ofWord (fixedEntry 3)
def e4m3 : Fmt := Fmt.ofWord (fixedEntry 4)

def Fmt.isInt (f : Fmt) : Bool := f.ew == 0
def Fmt.top (f : Fmt) : Nat := 2 ^ f.ew - 1

/-! ### Values (R75 to R78) -/

/-- A decoded value. A zero keeps its sign in `neg`; a NaN without a payload has fraction width 0. -/
inductive Value where
  | nan (neg : Bool) (frac fw : Nat) (signalling : Bool)
  | inf (neg : Bool)
  | fin (neg : Bool) (mag : Rat')
  deriving DecidableEq, Repr

/-- The exact signed value of a finite one. -/
def signedRat (neg : Bool) (mag : Rat') : Rat' := if neg then mag.neg else mag

/-- The value with the sign and magnitude of an exact number; `zneg` is the sign of a zero. -/
def Value.ofRat (zneg : Bool) (x : Rat') : Value := .fin (if x.isZero then zneg else x.isNeg) x.abs

def Value.isNaN : Value → Bool
  | .nan .. => true
  | _ => false

def Value.isSignalling : Value → Bool
  | .nan _ _ _ s => s
  | _ => false

def Value.neg : Value → Bool
  | .nan n .. => n
  | .inf n => n
  | .fin n _ => n

/-- Decodes a container (R75, R76). The NaN of a NaN-only entry without a fraction keeps its sign (R93): it stands as the
quiet fraction 1 of width 1, which converts as a fraction of width 0 does. -/
def Fmt.decode (f : Fmt) (c : Nat) : Value :=
  if f.isInt then
    let n := if f.signed then signedOf f.width c else ((c % 2 ^ f.width : Nat) : Int)
    Value.ofRat false (Rat'.scaled n f.bias)
  else
    let s := f.signed && c.testBit (f.width - 1)
    let e := field c f.fw f.ew
    let fr := field c 0 f.fw
    if f.policy = 0 ∧ e = f.top then
      if fr = 0 then .inf s else .nan s fr f.fw (!fr.testBit (f.fw - 1))
    else if f.policy = 1 ∧ e = f.top ∧ fr = 2 ^ f.fw - 1 then
      if f.fw = 0 then .nan s 1 1 false else .nan s fr f.fw false
    else if e = 0 then .fin s (Rat'.scaled fr (1 - f.bias - f.fw))
    else .fin s (Rat'.scaled ((2 ^ f.fw + fr : Nat) : Int) ((e : Int) - f.bias - f.fw))

/-- A finite non-zero value below the smallest normal magnitude (R75). -/
def Fmt.subnormal (f : Fmt) : Value → Bool
  | .fin _ m => !f.isInt && !m.isZero && m.lt (Rat'.scaled 1 (1 - f.bias))
  | _ => false

/-- A subnormal input reads as zero of its sign under the flush bit (R85). -/
def Fmt.flushIn (f : Fmt) (fz : Bool) (v : Value) : Value :=
  if fz && f.subnormal v then .fin v.neg (Rat'.ofInt 0) else v

/-- The sign bit of a container. -/
def Fmt.signBit (f : Fmt) (neg : Bool) : Nat := if f.signed && neg then 2 ^ (f.width - 1) else 0

/-- The code of an infinity of an IEEE entry. -/
def Fmt.infCode (f : Fmt) (neg : Bool) : Nat := f.signBit neg + f.top * 2 ^ f.fw

/-- The magnitude code of `maxf` (R75). -/
def Fmt.maxCode (f : Fmt) : Nat :=
  match f.policy with
  | 0 => f.top * 2 ^ f.fw - 1
  | 1 => (f.top + 1) * 2 ^ f.fw - 2
  | _ => (f.top + 1) * 2 ^ f.fw - 1

/-- `maxf` (R75); for an integer entry, the top of its range (R76). -/
def Fmt.maxf (f : Fmt) : Rat' :=
  if f.isInt then Rat'.scaled (2 ^ (f.width - if f.signed then 1 else 0) - 1) f.bias
  else match f.decode f.maxCode with
    | .fin _ m => m
    | _ => Rat'.ofInt 0

/-- The canonical NaN (R78); +0 for an entry without a NaN code. -/
def Fmt.canonicalNaN (f : Fmt) : Nat :=
  if f.isInt then 0
  else match f.policy with
    | 0 => if f.fw = 0 then 0 else f.top * 2 ^ f.fw + 2 ^ (f.fw - 1)
    | 1 => (f.top + 1) * 2 ^ f.fw - 1
    | _ => 0

/-- Whether the entry has a NaN code (R78, R93). -/
def Fmt.hasNaN (f : Fmt) : Bool := !f.isInt && (f.policy == 1 || (f.policy == 0 && f.fw != 0))

/-! ### Rounding and range (R83 to R85) -/

/-- Chooses between a magnitude `n` and `n + 1` when the exact magnitude is `n + r / d`, `r < d` (R83); `odd` is the
parity of the code of `n`, and `R` the 24-bit draw of SR. -/
def chooseMag (mode : Nat) (neg : Bool) (n r d : Nat) (odd : Bool) (R : Nat) : Nat :=
  if r = 0 then n
  else match mode with
    | 0 => if 2 * r < d then n else if d < 2 * r then n + 1 else if odd then n + 1 else n
    | 1 => n
    | 2 => if neg then n else n + 1
    | 3 => if neg then n + 1 else n
    | 4 => if 2 * r < d then n else n + 1
    | _ => if neg then (if R * d < 2 ^ 24 * (d - r) then n else n + 1)
           else (if R * d < 2 ^ 24 * r then n + 1 else n)

/-- A magnitude on the grid of spacing `2 ^ u`: the whole part, and the remainder over its denominator. -/
def onGrid (m : Rat') (u : Int) : Nat × Nat × Nat :=
  let x := m.scale (-u)
  (x.num.natAbs / x.den, x.num.natAbs % x.den, x.den)

/-- A rounded code and the flags it raises. -/
structure Coded where
  code  : Nat
  flags : FpFlags
  deriving DecidableEq, Repr

/-- An integer entry's code for the exact value of sign `neg` and magnitude `m` (R83, R84). -/
def Fmt.roundInt (f : Fmt) (mode : Nat) (R : Nat) (neg : Bool) (m : Rat') : Coded :=
  let (n, r, d) := onGrid m f.bias
  let k := chooseMag mode neg n r d (n % 2 == 1) R
  let v : Int := if neg then -(k : Int) else k
  let lo : Int := if f.signed then -(2 ^ (f.width - 1) : Nat) else 0
  let hi : Int := if f.signed then (2 ^ (f.width - 1) : Nat) - 1 else (2 ^ f.width : Nat) - 1
  if v < lo ∨ hi < v then ⟨wrapTo f.width (clampInt v lo hi), flagNV⟩
  else ⟨wrapTo f.width v, if r = 0 then 0 else flagNX⟩

/-- Whether the second rounding of R84 is below the smallest normal magnitude: `e` is the exponent of `m`. -/
def Fmt.tiny (f : Fmt) (mode : Nat) (R : Nat) (neg : Bool) (m : Rat') (e : Int) : Bool :=
  let (n, r, d) := onGrid m (e - f.fw)
  let odd := ((e + f.bias) * (2 ^ f.fw : Nat) + (n : Int) - (2 ^ f.fw : Nat)) % 2 == 1
  let k := chooseMag mode neg n r d odd R
  decide (e < 1 - f.bias) && !(e == -f.bias && k == 2 ^ (f.fw + 1))

/-- The overflow result of an IEEE entry without saturation is an infinity (R84). -/
def overflowsToInf (mode : Nat) (neg : Bool) : Bool :=
  match mode with
  | 1 => false
  | 2 => !neg
  | 3 => neg
  | _ => true

/-- A floating entry's code for a non-zero magnitude (R83 to R85). In an entry with S = 0, a negative value that rounds to
-0 gives +0 and is inexact (DEDUCED, log entry 79). -/
def Fmt.roundFloat (f : Fmt) (mode : Nat) (sat fz : Bool) (R : Nat) (neg : Bool) (m : Rat') : Coded :=
  let e := m.log2
  let ee : Int := max (e + f.bias) 1
  let (n, r, d) := onGrid m (ee - f.bias - f.fw)
  let base : Int := (ee - 1) * (2 ^ f.fw : Nat)
  let k := chooseMag mode neg n r d ((base + n) % 2 == 1) R
  let code := (base + k).toNat
  let inexact := r != 0
  if !f.signed && neg then
    if code = 0 then ⟨0, flagNX ||| (if f.tiny mode R neg m e then flagUF else 0)⟩ else ⟨0, flagNV⟩
  else if f.maxCode < code then
    ⟨if f.policy = 0 ∧ sat = false ∧ overflowsToInf mode neg = true then f.infCode neg
      else f.signBit neg + f.maxCode, flagOF ||| flagNX⟩
  else if fz && code != 0 && decide (code < 2 ^ f.fw) then ⟨f.signBit neg, flagUF ||| flagNX⟩
  else
    ⟨f.signBit neg + code,
      if inexact then flagNX ||| (if f.tiny mode R neg m e then flagUF else 0) else 0⟩

/-- The code of an exact finite value of sign `neg` and magnitude `m`, with its flags (R83 to R85). -/
def Fmt.round (f : Fmt) (mode : Nat) (sat fz : Bool) (R : Nat) (neg : Bool) (m : Rat') : Coded :=
  if f.isInt then f.roundInt mode R neg m
  else if m.isZero then ⟨f.signBit neg, 0⟩
  else f.roundFloat mode sat fz R neg m

/-- The code of a decoded value converted into the entry (R93). -/
def Fmt.convert (f : Fmt) (mode : Nat) (sat fz : Bool) (R : Nat) (v : Value) : Coded :=
  match v with
  | .nan s fr w sig =>
    if f.hasNaN then
      if w = 0 then ⟨f.canonicalNaN, 0⟩
      else
        let flags := if sig then flagNV else 0
        match f.policy with
        | 0 =>
          let fr' := fr * 2 ^ f.fw / 2 ^ w
          ⟨f.signBit s + f.top * 2 ^ f.fw + (fr' % 2 ^ (f.fw - 1) + 2 ^ (f.fw - 1)), flags⟩
        | _ => ⟨f.signBit s + ((f.top + 1) * 2 ^ f.fw - 1), flags⟩
    else ⟨0, flagNV⟩
  | .inf s =>
    if f.isInt then
      let lo : Int := if f.signed then -(2 ^ (f.width - 1) : Nat) else 0
      let hi : Int := if f.signed then (2 ^ (f.width - 1) : Nat) - 1 else (2 ^ f.width : Nat) - 1
      ⟨wrapTo f.width (if s then lo else hi), flagNV⟩
    else if !f.signed && s then ⟨0, flagNV⟩
    else if f.policy = 0 then ⟨f.infCode s, 0⟩
    else ⟨f.signBit s + f.maxCode, flagOF ||| flagNX⟩
  | .fin s m => f.round mode sat fz R s m

/-- The code of a NaN input of its own entry, quieted (R78, R89). -/
def Fmt.quiet (f : Fmt) (c : Nat) : Nat := if c.testBit (f.fw - 1) then c else c + 2 ^ (f.fw - 1)

/-! ### The stochastic-rounding generator (R87) -/

def srMix (z : Dword) : Dword :=
  let z := (z ^^^ (z >>> 30)) * 0xBF58476D1CE4E5B9
  let z := (z ^^^ (z >>> 27)) * 0x94D049BB133111EB
  z ^^^ (z >>> 31)

/-- The 24-bit draw from the seed, the linear group index and the coordinate. -/
def srDraw (seed group coord : Dword) : Nat :=
  ((srMix (seed ^^^ srMix (group ^^^ srMix coord))) >>> 40).toNat

/-- The coordinate of a class 0x4 or 0xC element (R87). -/
def srCoord (ctr : Word) (warp lane elem : Nat) : Dword :=
  BitVec.ofNat 64 (ctr.toNat * 2 ^ 32 + warp * 2 ^ 16 + lane * 2 ^ 8 + elem)

/-! ### Exact sums -/

/-- The product of two values under IEEE rules; an invalid product is a NaN without a payload. Of two NaN the first decides,
so a NaN scale hides the payload and the signalling bit of its element (DESIGN CHOICE, log entry 81). -/
def mulValue (a b : Value) : Value :=
  match a, b with
  | .nan s f w g, _ => .nan s f w g
  | _, .nan s f w g => .nan s f w g
  | .inf s, .inf t => .inf (s != t)
  | .inf s, .fin t m => if m.isZero then .nan false 0 0 false else .inf (s != t)
  | .fin s m, .inf t => if m.isZero then .nan false 0 0 false else .inf (s != t)
  | .fin s m, .fin t n => .fin (s != t) (m.mul n)

/-- The sum of two values under IEEE rules; `down` is RDN, which makes an exact cancellation -0 (R183). -/
def addValue (down : Bool) (a b : Value) : Value :=
  match a, b with
  | .nan s f w g, _ => .nan s f w g
  | _, .nan s f w g => .nan s f w g
  | .inf s, .inf t => if s == t then .inf s else .nan false 0 0 false
  | .inf s, .fin .. => .inf s
  | .fin .., .inf t => .inf t
  | .fin s m, .fin t n =>
    Value.ofRat (if s == t then s else down) ((signedRat s m).add (signedRat t n))

/-- Division under IEEE rules and whether it raises NV or DZ (R188, R493). -/
def divValue (a b : Value) : Value × FpFlags :=
  match a, b with
  | .nan s f w g, _ => (.nan s f w g, 0)
  | _, .nan s f w g => (.nan s f w g, 0)
  | .inf s, .fin t _ => (.inf (s != t), 0)
  | .inf _, .inf _ => (.nan false 0 0 false, flagNV)
  | .fin s _, .inf t => (.fin (s != t) (Rat'.ofInt 0), 0)
  | .fin s m, .fin t n =>
    if n.isZero then
      if m.isZero then (.nan false 0 0 false, flagNV) else (.inf (s != t), flagDZ)
    else (.fin (s != t) (m.div n), 0)

/-- Whether `a < b`, with -0 equal to +0; false for a NaN. -/
def ltValue (a b : Value) : Bool :=
  match a, b with
  | .nan .., _ => false
  | _, .nan .. => false
  | .inf s, .inf t => s && !t
  | .inf s, .fin .. => s
  | .fin .., .inf t => !t
  | .fin s m, .fin t n => (signedRat s m).lt (signedRat t n)

/-- Whether two values are equal, with -0 equal to +0; false for a NaN. -/
def eqValue (a b : Value) : Bool :=
  match a, b with
  | .inf s, .inf t => s == t
  | .fin s m, .fin t n => (signedRat s m).eq (signedRat t n)
  | _, _ => false

end Sys2Proof.Machine
end

