-- ==== Sys2Proof/Machine/Lanes.lean ====
section
/-! DEFINITION. Hints as values (R55 to R60), and what one lane computes: integers (R172 to R179), floating point
(R181 to R189), conversions (R98 to R100, R493), reductions and packing (R200 to R206). -/

namespace Sys2Proof.Machine

/-! ### Hints -/

/-- The fields of an HMOD word (R57); the zero word is the default. -/
structure HMod where
  scope : Nat
  ord   : Nat
  rnd   : Nat
  sat   : Bool
  wid   : Nat
  sela  : Nat
  selb  : Nat
  nega  : Bool
  negb  : Bool
  absa  : Bool
  absb  : Bool
  sgn   : Bool
  deriving DecidableEq, Repr

def HMod.none : HMod :=
  { scope := 0, ord := 0, rnd := 0, sat := false, wid := 0, sela := 0, selb := 0, nega := false, negb := false,
    absa := false, absb := false, sgn := false }

/-- The fields of HMOD, as R48 names them. -/
inductive ModField where
  | scope | order | rnd | sat | wid | sela | selb | na | nb | xa | xb | sgn
  deriving DecidableEq, Repr

/-- Whether a field of HMOD holds zero. -/
def HMod.isZero (h : HMod) : ModField → Bool
  | .scope => h.scope == 0 | .order => h.ord == 0 | .rnd => h.rnd == 0 | .sat => !h.sat | .wid => h.wid == 0
  | .sela => h.sela == 0 | .selb => h.selb == 0 | .na => !h.nega | .nb => !h.negb | .xa => !h.absa | .xb => !h.absb
  | .sgn => !h.sgn

def allModFields : List ModField := [.scope, .order, .rnd, .sat, .wid, .sela, .selb, .na, .nb, .xa, .xb, .sgn]

/-- The fields of an HPERM word (R60). -/
structure Perm where
  pa : Nat
  na : Nat
  pb : Nat
  nb : Nat
  s  : Nat
  deriving DecidableEq, Repr

def Perm.none : Perm := { pa := 0, na := 0, pb := 0, nb := 0, s := 0 }

/-- The source lane of lane `L` under a pattern (R60); `x` is the scalar of pattern 5. -/
def permLane (pattern n : Nat) (x : Word) (L : Nat) : Nat :=
  match pattern with
  | 0 => L
  | 1 => (L + n) % 32
  | 2 => n
  | 3 => L ^^^ n
  | 4 => L ^^^ (2 ^ n - 1)
  | _ => x.toNat % 32

/-- A register read through the crossbar (R169, R191). -/
def routed (pattern n : Nat) (x : Word) (v : Lanes) : Lanes :=
  if pattern = 0 then v else perLane (fun L => lane v (permLane pattern n x L))

/-! ### Conditions (R44) -/

/-- The integer column. -/
def intCond (cc : Nat) (a b : Word) : Bool :=
  match cc with
  | 0 => a == b
  | 1 => a != b
  | 2 => a.slt b
  | 3 => a.sle b
  | 4 => b.slt a
  | 5 => b.sle a
  | 6 => a.ult b
  | 7 => a.ule b
  | 8 => b.ult a
  | _ => b.ule a

/-- The floating column. -/
def fpCond (cc : Nat) (a b : Value) : Bool :=
  let ord := !a.isNaN && !b.isNaN
  match cc with
  | 0 => eqValue a b
  | 1 => !eqValue a b
  | 2 => ltValue a b
  | 3 => ltValue a b || eqValue a b
  | 4 => ltValue b a
  | 5 => ltValue b a || eqValue a b
  | 10 => ord
  | _ => !ord

/-! ### Integer lanes (R172 to R179) -/

/-- The sub-element width of WID (R172). -/
def subWidth (wid : Nat) : Nat := 32 / 2 ^ wid

/-- The word whose sub-element `j` of width `w` is `f j`, for `j` below `n`. -/
def joinSubs (w : Nat) (f : Nat → Nat) : Nat → Nat
  | 0 => 0
  | n + 1 => joinSubs w f n + (f n % 2 ^ w) * 2 ^ (w * n)

def subWord (w : Nat) (f : Nat → Nat) : Word := BitVec.ofNat 32 (joinSubs w f (32 / w))

/-- Sub-element `j` of a word. -/
def subElem (w : Nat) (x : Word) (j : Nat) : Nat := field x.toNat (w * j) w

/-- A selector: sub-element `s - 1` for every position, or the position itself (R58). -/
def selected (s j : Nat) : Nat := if s = 0 then j else s - 1

/-- A sub-element read as two's complement or unsigned. -/
def readSub (signed : Bool) (w x : Nat) : Int := if signed then signedOf w x else (x : Int)

/-- The clamp of SAT (R172). -/
def saturated (sgn : Bool) (w : Nat) (x : Int) : Int :=
  if sgn then clampInt x (-(2 ^ (w - 1) : Nat)) ((2 ^ (w - 1) : Nat) - 1) else clampInt x 0 ((2 ^ w : Nat) - 1)

/-- R172 for one lane: `signed` is how operands are read, `f` the exact effect on `a`, `b` and the sub-element of vd. -/
def intLane (h : HMod) (signed : Bool) (f : Nat → Int → Int → Int → Int) (a b d : Word) : Word :=
  let w := subWidth h.wid
  subWord w (fun j =>
    let x := f w (readSub signed w (subElem w a (selected h.sela j))) (readSub signed w (subElem w b (selected h.selb j)))
      (readSub signed w (subElem w d j))
    wrapTo w (if h.sat then saturated h.sgn w x else x))

/-- The shift count of a sub-element (R173). -/
def subShift (w : Nat) (b : Int) : Nat := wrapTo w b % w

/-- A bitwise operation on unsigned sub-elements. -/
def bitwise (f : Nat → Nat → Nat) (a b : Int) : Int := (f a.toNat b.toNat : Nat)

/-- `VSAD` (R174). -/
def sadLane (h : HMod) (a b d : Word) : Word :=
  let w := subWidth h.wid
  let t := (List.range (32 / w)).foldl (fun (acc : Nat) j =>
    acc + (readSub h.sgn w (subElem w a (selected h.sela j)) - readSub h.sgn w (subElem w b (selected h.selb j))).natAbs) d.toNat
  if h.sat then BitVec.ofNat 32 (min t (2 ^ 32 - 1)) else BitVec.ofNat 32 t

/-- The field extract of R153 and R178. -/
def bitExtract (a b : Word) : Word :=
  let pos := field b.toNat 0 5
  let len := min (field b.toNat 8 6) 32
  let f := a.toNat / 2 ^ pos % 2 ^ len
  if b.getLsbD 16 && decide (0 < len) then BitVec.ofNat 32 (wrapTo 32 (signedOf len f)) else BitVec.ofNat 32 f

/-- The field insert of R153 and R178. -/
def bitInsert (d a b : Word) : Word :=
  let pos := field b.toNat 0 5
  let len := min (field b.toNat 8 6) 32
  let mask : Word := BitVec.ofNat 32 ((2 ^ len - 1) * 2 ^ pos)
  (d &&& ~~~mask) ||| (BitVec.ofNat 32 (a.toNat * 2 ^ pos) &&& mask)

/-! ### Floating lanes (R181 to R189) -/

/-- The element format of a precision code (R180). -/
def precFmt (p : Nat) : Fmt :=
  match p with
  | 0 => binary32 | 1 => binary64 | 2 => binary16 | _ => bfloat16

/-- The elements of a precision in one lane. -/
def precElems (p : Nat) : Nat := if p < 2 then 1 else 2

/-- Element `e` of the lane whose registers hold `lo` and `hi`. -/
def fpElem (p : Nat) (lo hi : Word) (e : Nat) : Nat :=
  match p with
  | 0 => lo.toNat
  | 1 => (pairOf lo hi).toNat
  | _ => field lo.toNat (16 * e) 16

/-- ABS, then NEG, on the sign bit alone (R169). -/
def signMods (f : Fmt) (abs neg : Bool) (c : Nat) : Nat :=
  let s := 2 ^ (f.width - 1)
  let c := if abs then c % s else c
  if neg then (if c < s then c + s else c - s) else c

/-- The first NaN code of a list, quieted, and whether any is signalling (R89). -/
def nanOf (f : Fmt) (cs : List Nat) : Option (Nat × FpFlags) :=
  match cs.find? (fun c => (f.decode c).isNaN) with
  | none => none
  | some c => some (f.quiet c, if cs.any (fun c => (f.decode c).isSignalling) then flagNV else 0)

/-- A value rounded into the element format; a NaN made by the operation is the canonical one, with NV (R89). -/
def roundResult (f : Fmt) (rnd : Nat) (fz : Bool) (R : Nat) (v : Value) : Coded :=
  match v with
  | .nan .. => ⟨f.canonicalNaN, flagNV⟩
  | .inf s => ⟨f.infCode s, 0⟩
  | .fin s m => f.round rnd false fz R s m

/-- Decodes an operand after R169, with the flush of R85. -/
def operandValue (f : Fmt) (fz : Bool) (c : Nat) : Value := f.flushIn fz (f.decode c)

/-- Addition, subtraction and multiplication (R182, R183). -/
def fpAdd (f : Fmt) (rnd : Nat) (fz : Bool) (R a b : Nat) : Coded :=
  match nanOf f [a, b] with
  | some (c, fl) => ⟨c, fl⟩
  | none => roundResult f rnd fz R (addValue (rnd == 3) (operandValue f fz a) (operandValue f fz b))

def fpMul (f : Fmt) (rnd : Nat) (fz : Bool) (R a b : Nat) : Coded :=
  match nanOf f [a, b] with
  | some (c, fl) => ⟨c, fl⟩
  | none => roundResult f rnd fz R (mulValue (operandValue f fz a) (operandValue f fz b))

/-- `VFMA` (R89, R183): one rounding of `a * b + c`. -/
def fpFma (f : Fmt) (rnd : Nat) (fz : Bool) (R a b c : Nat) : Coded :=
  match nanOf f [a, b, c] with
  | some (n, fl) => ⟨n, fl⟩
  | none => roundResult f rnd fz R
      (addValue (rnd == 3) (mulValue (operandValue f fz a) (operandValue f fz b)) (operandValue f fz c))

/-- The code that an operand returns unchanged, as the zero that the flush bit makes of a subnormal (R184). -/
def flushedCode (f : Fmt) (fz : Bool) (c : Nat) : Nat :=
  if fz && f.subnormal (f.decode c) then f.signBit (f.decode c).neg else c

/-- Whether `a` comes before `b` in the order of R184, where -0 is less than +0. -/
def orderedBefore (a b : Value) : Bool := ltValue a b || (eqValue a b && a.neg && !b.neg)

/-- `VFMIN` and `VFMAX` (R184). -/
def fpMinMax (isMax : Bool) (f : Fmt) (fz : Bool) (a b : Nat) : Coded :=
  match nanOf f [a, b] with
  | some (c, fl) => ⟨c, fl⟩
  | none =>
    let less := orderedBefore (operandValue f fz a) (operandValue f fz b)
    ⟨flushedCode f fz (if less == isMax then b else a), 0⟩

/-- `VFCMP` for one element (R185): the bit, and NV. -/
def fpCompare (cc : Nat) (f : Fmt) (fz : Bool) (a b : Nat) : Bool × FpFlags :=
  let va := operandValue f fz a
  let vb := operandValue f fz b
  let nan := va.isNaN || vb.isNaN
  let sig := va.isSignalling || vb.isSignalling
  (fpCond cc va vb, if sig || (nan && decide (2 ≤ cc) && decide (cc ≤ 5)) then flagNV else 0)

/-- `VFRND` (R186): the grid of integers, with no flag but NV. -/
def fpRound (f : Fmt) (rnd : Nat) (fz : Bool) (R a : Nat) : Coded :=
  match nanOf f [a] with
  | some (c, fl) => ⟨c, fl⟩
  | none =>
    match operandValue f fz a with
    | .fin s m =>
      let (n, r, d) := onGrid m 0
      let k := chooseMag rnd s n r d (n % 2 == 1) R
      ⟨if r = 0 then flushedCode f fz a
        else if k = 0 then f.signBit s else (f.round 0 false false 0 s (Rat'.ofInt k)).code, 0⟩
    | _ => ⟨a, 0⟩

/-- `VFCLS` for one element (R187): the class mask. -/
def fpClass (f : Fmt) (a : Nat) : Nat :=
  match f.decode a with
  | .nan _ _ _ sig => if sig then 1 else 2
  | .inf s => if s then 4 else 512
  | .fin s m =>
    if m.isZero then (if s then 32 else 64)
    else if f.subnormal (.fin s m) then (if s then 16 else 128)
    else if s then 8 else 256

/-- The 24 bits of SR below the last place, with margin: where an irrational result stops mattering (R83). -/
def stickyBits (f : Fmt) (m : Rat') : Int := f.fw + 30 - m.log2

/-- `VFSQRT` (R188). -/
def fpSqrt (f : Fmt) (rnd : Nat) (fz : Bool) (R a : Nat) : Coded :=
  match nanOf f [a] with
  | some (c, fl) => ⟨c, fl⟩
  | none =>
    match operandValue f fz a with
    | .fin s m =>
      if m.isZero then ⟨f.signBit s, 0⟩
      else if s then ⟨f.canonicalNaN, flagNV⟩
      else f.round rnd false fz R false (sqrtAt m (stickyBits f (Rat'.scaled 1 (m.log2 / 2))))
    | .inf s => if s then ⟨f.canonicalNaN, flagNV⟩ else ⟨f.infCode false, 0⟩
    | .nan .. => ⟨f.canonicalNaN, flagNV⟩

/-- `VFDIV` (R188). -/
def fpDiv (f : Fmt) (rnd : Nat) (fz : Bool) (R a b : Nat) : Coded :=
  match nanOf f [a, b] with
  | some (c, fl) => ⟨c, fl⟩
  | none =>
    let (v, fl) := divValue (operandValue f fz a) (operandValue f fz b)
    let r := roundResult f rnd fz R v
    ⟨r.code, r.flags ||| fl⟩

/-- The binary32 functions of R189. -/
inductive FpFn where
  | rcp | rsq | exp2 | log2 | sin | cos | tanh
  deriving DecidableEq, Repr

/-- The exact value, or a special case, of a function of a value that is not NaN (R189). -/
def FpFn.value (fn : FpFn) (v : Value) : Value × FpFlags :=
  let bad : Value × FpFlags := (.nan false 0 0 false, flagNV)
  let zero : Rat' := Rat'.ofInt 0
  match fn, v with
  | .rcp, .inf s => (.fin s zero, 0)
  | .rcp, .fin s m => if m.isZero then (.inf s, flagDZ) else (.fin s ((Rat'.ofInt 1).div m), 0)
  | .rsq, .inf s => if s then bad else (.fin false zero, 0)
  | .rsq, .fin s m =>
    if m.isZero then (.inf s, flagDZ)
    else if s then bad
    else (.fin false (sqrtAt ((Rat'.ofInt 1).div m) (stickyBits binary32 (Rat'.scaled 1 (-(m.log2 / 2) - 1)))), 0)
  | .exp2, .inf s => (if s then .fin false zero else .inf false, 0)
  | .exp2, .fin s m => (.fin false (exp2Exact (signedRat s m)), 0)
  | .log2, .inf s => if s then bad else (.inf false, 0)
  | .log2, .fin s m =>
    if m.isZero then (.inf true, flagDZ)
    else if s then bad
    else (Value.ofRat false (log2Exact m), 0)
  | .sin, .inf _ => bad
  | .sin, .fin s m => if m.isZero then (.fin s zero, 0) else (Value.ofRat s (sinExact (signedRat s m)), 0)
  | .cos, .inf _ => bad
  | .cos, .fin s m => if m.isZero then (.fin false (Rat'.ofInt 1), 0) else (Value.ofRat false (cosExact (signedRat s m)), 0)
  | .tanh, .inf s => (.fin s (Rat'.ofInt 1), 0)
  | .tanh, .fin s m => if m.isZero then (.fin s zero, 0) else (Value.ofRat s (tanhExact (signedRat s m)), 0)
  | _, .nan .. => bad

/-- A function of R189, rounded once by RNE. -/
def fpFunction (fn : FpFn) (fz : Bool) (a : Nat) : Coded :=
  let f := binary32
  match nanOf f [a] with
  | some (c, fl) => ⟨c, fl⟩
  | none =>
    let (v, fl) := fn.value (operandValue f fz a)
    let r := roundResult f 0 fz 0 v
    ⟨r.code, r.flags ||| fl⟩

/-! ### Conversion (R77, R98, R493) -/

/-- The scale that a block-scaled entry decodes from a code (R77); a NaN scale has no payload, and the flush bit
leaves its subnormal codes as they are (log entry 80). -/
def Fmt.scaleValue (f : Fmt) (z : Nat) : Value :=
  if f.scaled = 1 then (if z % 256 = 255 then .nan false 0 0 false else .fin false (Rat'.scaled 1 ((z % 256 : Nat) - 127)))
  else match e4m3.decode z with
    | .nan .. => .nan false 0 0 false
    | v => v

/-- The element of a lane, with the scale of a block-scaled source (R77, R85, R92). -/
def Fmt.laneValue (f : Fmt) (fz : Bool) (lo hi : Word) : Value :=
  let c := if f.width = 64 then (pairOf lo hi).toNat else field lo.toNat 0 f.width
  let x := f.flushIn fz (f.decode c)
  if f.scaled = 0 then x else mulValue (f.scaleValue (field lo.toNat 24 8)) x

/-- `x / m` under R493, where a NaN scale comes first. -/
def scaleDown (x m : Value) : Value × FpFlags :=
  if m.isNaN then (m, 0) else divValue x m

/-- A code written into the lane: bits outside the element are zero, and the scale of a block-scaled destination stays
(R92). -/
def Fmt.intoLane (f : Fmt) (old : Word) (code : Nat) : Word × Word :=
  (BitVec.ofNat 32 (code % 2 ^ f.width) ||| (if f.scaled = 0 then 0 else old &&& 0xFF000000), BitVec.ofNat 32 (code / 2 ^ 32))

/-- The conversion of one lane (R98): the destination words and the flags. -/
def convertLane (dst : Fmt) (rnd : Nat) (sat fz : Bool) (R : Nat) (x : Value) (old : Word) : (Word × Word) × FpFlags :=
  let (q, fl) := if dst.scaled = 0 then (x, 0) else scaleDown x (dst.scaleValue (field old.toNat 24 8))
  let c := dst.convert rnd sat fz R q
  (dst.intoLane old c.code, c.flags ||| fl)

/-- The scale code of a block from the magnitudes of its elements (R100), and NV; a subnormal f4 scale is kept, flush bit or not, and
raises neither UF nor NX (log entry 80). -/
def blockScale (dst : Fmt) (xs : List Value) : Nat × FpFlags :=
  if xs.any (fun x => match x with | .fin .. => false | _ => true) then (if dst.scaled = 1 then 0xFF else 0x7F, flagNV)
  else
    let mags := xs.filterMap (fun x => match x with | .fin _ m => some m | _ => none)
    let mx := mags.foldl (fun a b => if a.lt b then b else a) (Rat'.ofInt 0)
    if mx.isZero then (if dst.scaled = 1 then 127 else 0x38, 0)
    else if dst.scaled = 1 then ((clampInt (mx.log2 - dst.maxf.log2) (-127) 127 + 127).toNat, 0)
    else
      let q := mx.div dst.maxf
      let q := if q.lt (Rat'.scaled 1 (-9)) then Rat'.scaled 1 (-9) else if (Rat'.ofInt 448).lt q then Rat'.ofInt 448 else q
      ((e4m3.round 2 false false 0 false q).code, 0)

/-! ### Reductions (R200, R201) -/

/-- The combination of the sub-elements of a list of lanes by an integer operation. -/
def combineSubs (h : HMod) (op : Nat) (xs : List Word) : Word :=
  let w := subWidth h.wid
  subWord w (fun j =>
    let es := xs.map (fun x => subElem w x j)
    match op with
    | 0 =>
      let t := es.foldl (fun (a : Int) e => a + readSub h.sgn w e) 0
      wrapTo w (if h.sat then saturated h.sgn w t else t)
    | 1 => wrapTo w (es.foldl (fun (a : Int) e => min a (signedOf w e)) ((2 ^ (w - 1) : Nat) - 1))
    | 2 => wrapTo w (es.foldl (fun (a : Int) e => max a (signedOf w e)) (-(2 ^ (w - 1) : Nat)))
    | 3 => es.foldl min (2 ^ w - 1)
    | 4 => es.foldl max 0
    | 5 => es.foldl (fun a e => a &&& e) (2 ^ w - 1)
    | 6 => es.foldl (fun a e => a ||| e) 0
    | _ => es.foldl (fun a e => a ^^^ e) 0)

/-- The exact sum of binary32 values rounded once, or their maximum, with no flag and no flush (R201). -/
def combineFloats (isMax : Bool) (xs : List Word) : Word :=
  let f := binary32
  let cs := xs.map BitVec.toNat
  match nanOf f cs with
  | some (c, _) => BitVec.ofNat 32 c
  | none =>
    let vs := cs.map f.decode
    if isMax then
      BitVec.ofNat 32 (cs.foldl (fun a c => if orderedBefore (f.decode a) (f.decode c) then c else a) 0xFF800000)
    else match vs with
      | [] => 0
      | v :: vs => BitVec.ofNat 32 (roundResult f 0 false 0 (vs.foldl (addValue false) v)).code

/-- The combination of a list of lanes in ascending order; the empty list gives the identity (R200). -/
def combine (h : HMod) (op : Nat) (xs : List Word) : Word :=
  match op with
  | 8 => combineFloats false xs
  | 9 => combineFloats true xs
  | _ => combineSubs h op xs

/-- binary32 to bfloat16 as R205 converts it. -/
def toBf16 (x : Word) : Nat :=
  match binary32.decode x.toNat with
  | .nan .. => field x.toNat 16 16 ||| 0x40
  | .inf s => bfloat16.infCode s
  | .fin s m => (bfloat16.round 0 false false 0 s m).code

/-! ### Atomic operations (R216, R227, R228) -/

/-- The new value of an atomic operation of R226 on `z` bytes. -/
def atomicValue (op z : Nat) (old b : Nat) : Nat :=
  let w := 8 * z
  match op with
  | 0 => (old + b) % 2 ^ w
  | 1 => (old + (2 ^ w - b % 2 ^ w)) % 2 ^ w
  | 2 => if signedOf w b < signedOf w old then b else old
  | 3 => if signedOf w old < signedOf w b then b else old
  | 4 => min old b
  | 5 => max old b
  | 6 => old &&& b
  | 7 => old ||| b
  | 8 => old ^^^ b
  | 9 => b
  | 10 => if b ≤ old then 0 else old + 1
  | 11 => if old = 0 ∨ b < old then b else old - 1
  | 12 => (fpAdd binary32 0 false 0 old b).code
  | 13 =>
    (fpAdd bfloat16 0 false 0 (field old 0 16) (field b 0 16)).code +
      (fpAdd bfloat16 0 false 0 (field old 16 16) (field b 16 16)).code * 2 ^ 16
  | _ => (fpMinMax true binary32 false old b).code

/-- The operation of R226 that an operation code of `SATOM` names (R216). -/
def satomOp (op : Nat) : Nat :=
  match op with
  | 0 => 0 | 1 => 2 | 2 => 3 | 3 => 6 | 4 => 7 | 5 => 8 | 6 => 9 | _ => 10

end Sys2Proof.Machine
end

