-- ==== Sys2Proof/Config.lean ====
section
/-! DEFINITION. What one implementation fixes and the free values: opaque constants with no body, so that nothing
can be proved of their values. The spec leaves each of them open (log entries 2, 6, 7 and 8). -/

namespace Sys2Proof.Config

/-- A fresh free word: the first argument is the counter `State.draws`, which every step advances, and the second tells
the free values of one step apart (log entry 2). -/
opaque freeWord : Nat → Nat → Word

/-- The function that spreads the 128-byte lines of one die over its 32 L2 slices; R14 fixes it and does not state it
(log entry 6). -/
opaque sliceHash : Nat → Nat

/-- Whether an access to a line is served by the L2 without reaching the HBM controller: the cache's contents are
not part of the spec's state (log entry 7). -/
opaque l2Holds : Nat → Nat → Bool

/-- The headbox firmware version that `FEATR` 3 reads (R456), which the spec does not state (log entry 8). -/
opaque firmwareVersion : Word

/-- The extension of a digest into a measurement register (R457), whose function the spec does not state (log entry 10). -/
opaque extendMeasurement : BitVec 384 → BitVec 384 → BitVec 384

/-- The digest of the firmware image that the device was made with (R457), which the spec does not state (log entry 10). -/
opaque factoryDigest : BitVec 384

end Sys2Proof.Config
end

