-- ==== Sys2Proof/Syntax.lean ====
section
/-! DEFINITION. The abstract syntax: one constructor of `Instr` for each row of the opcode table (45 encoded
classes and the device's own events), with the operand fields of R40 as bit vectors and the arguments that
name the object an event acts on. -/

namespace Sys2Proof

/-- The three warp roles (R105), as event arguments name them. -/
inductive RoleCode where
  | copy | maths | epilogue
  deriving DecidableEq, Repr

/-- A signed firmware image offered to a slot (R457, R458): whether its signature verifies, its security version,
its digest, and the version `FEATR` 3 reports. -/
structure FirmwareImage where
  verifies : Bool
  security : Nat
  digest   : BitVec 384
  version  : BitVec 32
  deriving DecidableEq, Repr

/-- What one sensor reading tells the firmware (R459, R460): the temperature and the droop, the weight derived, and which limits
the quire passes. -/
structure SensorReading where
  quire     : Nat
  temperature : BitVec 32
  droop     : BitVec 32
  weight    : BitVec 8
  overTemp  : Bool
  overDroop : Bool
  overCap   : Bool
  critical  : Bool
  deriving DecidableEq, Repr

/-- What an audit of a link finds of one class beside the permits held: the slots occupied and the permits returning, for what the
device sends and for what it receives (R443). -/
structure ClassAudit where
  sentOccupied      : Nat
  sentReturning     : Nat
  receivedOccupied  : Nat
  receivedReturning : Nat
  deriving DecidableEq, Repr

/-- The instruction that consumed bad data: its warp and fragment, and the recipe slot whose replay read it, if any (R28, R144). -/
structure EccConsumer where
  warp : Nat
  frag : Nat
  slot : Option Nat
  deriving DecidableEq, Repr

/-- Where the data of an uncorrectable error lies (R27 to R30). -/
inductive EccSite where
  /-- Data held elsewhere in correct form (R27); `entry`: the translation cache entry of a partition, slot and virtual address. -/
  | cleanCopy (entry : Option (Nat × Nat × Nat))
  /-- Device memory or a dirty L2 line: physical address, the context whose access met it, if any, and what consumed it, if
  anything (R28). -/
  | memory (pa : Nat) (accessor : Option (Nat × Nat)) (consumer : Option EccConsumer)
  /-- A vat granule of a group, or a recipe slot of one of its warps, with what consumed it, if anything (R28). -/
  | vat (group : Nat) (consumer : Option EccConsumer)
  /-- A copy in transit (R28, R326). -/
  | copy (uid pa : Nat)
  /-- A drain or another operation of an engine in transit (R28). -/
  | tileOp (uid pa : Nat)
  /-- A mailbox message in transit, by its place in the ring (R28). -/
  | message (mbox place pa : Nat)
  /-- Storage that no context holds (R29). -/
  | unowned
  /-- State that belongs to no context (R30). -/
  | global
  deriving DecidableEq, Repr

/-- What the patrol scrubber finds in one pass (R26, R28). -/
inductive ScrubFinding where
  | nothing
  | correctable (cls : Nat)
  | uncorrectable (cls : Nat) (pa : Nat)
  deriving DecidableEq, Repr

/-- The instructions and events of Chevia 3 on the SPJ-6480. Operand names are the field names of the opcode
table. -/
inductive Instr where
  /-- SADD: Adds two scalars modulo 2^32. (R152) -/
  | sadd (d : BitVec 6) (a : BitVec 6) (b : BitVec 6) (i : BitVec 1)
  /-- SADDC: Adds two scalars and a carry bit and writes the carry out to the condition bit. (R152) -/
  | saddc (d : BitVec 6) (a : BitVec 6) (b : BitVec 6) (i : BitVec 1) (c : BitVec 3)
  /-- SSUB: Subtracts one scalar from another modulo 2^32. (R152) -/
  | ssub (d : BitVec 6) (a : BitVec 6) (b : BitVec 6) (i : BitVec 1)
  /-- SSUBB: Subtracts with borrow and writes the borrow out to the condition bit. (R152) -/
  | ssubb (d : BitVec 6) (a : BitVec 6) (b : BitVec 6) (i : BitVec 1) (c : BitVec 3)
  /-- SMUL: Multiplies two scalars and keeps the low 32 bits. (R152) -/
  | smul (d : BitVec 6) (a : BitVec 6) (b : BitVec 6) (i : BitVec 1)
  /-- SMULHI: Writes the high 32 bits of the signed product. (R152) -/
  | smulhi (d : BitVec 6) (a : BitVec 6) (b : BitVec 6) (i : BitVec 1)
  /-- SMULHU: Writes the high 32 bits of the unsigned product. (R152) -/
  | smulhu (d : BitVec 6) (a : BitVec 6) (b : BitVec 6) (i : BitVec 1)
  /-- SMAD: Adds the product of two scalars to the destination scalar. (R152) -/
  | smad (d : BitVec 6) (a : BitVec 6) (b : BitVec 6) (i : BitVec 1)
  /-- SDIV: Divides signed scalars, truncating toward zero, without faulting. (R154) -/
  | sdiv (d : BitVec 6) (a : BitVec 6) (b : BitVec 6) (i : BitVec 1)
  /-- SDIVU: Divides unsigned scalars without faulting. (R154) -/
  | sdivu (d : BitVec 6) (a : BitVec 6) (b : BitVec 6) (i : BitVec 1)
  /-- SREM: Writes the signed remainder, which takes the sign of the dividend. (R154) -/
  | srem (d : BitVec 6) (a : BitVec 6) (b : BitVec 6) (i : BitVec 1)
  /-- SREMU: Writes the unsigned remainder. (R154) -/
  | sremu (d : BitVec 6) (a : BitVec 6) (b : BitVec 6) (i : BitVec 1)
  /-- SAND: Writes the bitwise AND of two scalars. (R152) -/
  | sand (d : BitVec 6) (a : BitVec 6) (b : BitVec 6) (i : BitVec 1)
  /-- SOR: Writes the bitwise OR of two scalars. (R152) -/
  | sor (d : BitVec 6) (a : BitVec 6) (b : BitVec 6) (i : BitVec 1)
  /-- SXOR: Writes the bitwise XOR of two scalars. (R152) -/
  | sxor (d : BitVec 6) (a : BitVec 6) (b : BitVec 6) (i : BitVec 1)
  /-- SANDN: Writes a AND NOT b. (R152) -/
  | sandn (d : BitVec 6) (a : BitVec 6) (b : BitVec 6) (i : BitVec 1)
  /-- SSHL: Shifts a scalar left by b[4:0]. (R152) -/
  | sshl (d : BitVec 6) (a : BitVec 6) (b : BitVec 6) (i : BitVec 1)
  /-- SSHR: Shifts a scalar right logically by b[4:0]. (R152) -/
  | sshr (d : BitVec 6) (a : BitVec 6) (b : BitVec 6) (i : BitVec 1)
  /-- SSRA: Shifts a scalar right arithmetically by b[4:0]. (R152) -/
  | ssra (d : BitVec 6) (a : BitVec 6) (b : BitVec 6) (i : BitVec 1)
  /-- SROL: Rotates a scalar left by b[4:0]. (R152) -/
  | srol (d : BitVec 6) (a : BitVec 6) (b : BitVec 6) (i : BitVec 1)
  /-- SMIN: Writes the signed minimum of two scalars. (R152) -/
  | smin (d : BitVec 6) (a : BitVec 6) (b : BitVec 6) (i : BitVec 1)
  /-- SMAX: Writes the signed maximum of two scalars. (R152) -/
  | smax (d : BitVec 6) (a : BitVec 6) (b : BitVec 6) (i : BitVec 1)
  /-- SMINU: Writes the unsigned minimum of two scalars. (R152) -/
  | sminu (d : BitVec 6) (a : BitVec 6) (b : BitVec 6) (i : BitVec 1)
  /-- SMAXU: Writes the unsigned maximum of two scalars. (R152) -/
  | smaxu (d : BitVec 6) (a : BitVec 6) (b : BitVec 6) (i : BitVec 1)
  /-- SCMP: Compares two scalars under an integer condition and writes a condition bit. (R152) -/
  | scmp (k : BitVec 3) (c : BitVec 4) (a : BitVec 6) (b : BitVec 6) (i : BitVec 1)
  /-- SSEL: Selects a or b by a condition bit. (R152) -/
  | ssel (d : BitVec 6) (a : BitVec 6) (b : BitVec 6) (i : BitVec 1) (c : BitVec 3)
  /-- SMOV: Copies one scalar to another. (R152) -/
  | smov (d : BitVec 6) (a : BitVec 6)
  /-- SMOVI: Writes a sign-extended immediate, or the HIMM value, to a scalar. (R152) -/
  | smovi (d : BitVec 6) (i : BitVec 16)
  /-- SMOVHI: Writes a 16-bit immediate into the high half of a scalar and keeps its low half. (R152) -/
  | smovhi (d : BitVec 6) (i : BitVec 16)
  /-- SCLZ: Counts the leading zeros of a scalar. (R152) -/
  | sclz (d : BitVec 6) (a : BitVec 6)
  /-- SPOPC: Counts the one bits of a scalar. (R152) -/
  | spopc (d : BitVec 6) (a : BitVec 6)
  /-- SBFE: Extracts a bit field from a scalar, optionally sign-extended. (R153) -/
  | sbfe (d : BitVec 6) (a : BitVec 6) (b : BitVec 6) (i : BitVec 1)
  /-- SBFI: Inserts a bit field into the destination scalar. (R153) -/
  | sbfi (d : BitVec 6) (a : BitVec 6) (b : BitVec 6) (i : BitVec 1)
  /-- SADD64: Adds two 64-bit register pairs. (R155) -/
  | sadd64 (d : BitVec 6) (a : BitVec 6) (b : BitVec 6) (i : BitVec 1)
  /-- SSUB64: Subtracts one 64-bit register pair from another. (R155) -/
  | ssub64 (d : BitVec 6) (a : BitVec 6) (b : BitVec 6) (i : BitVec 1)
  /-- SSHL64: Shifts a 64-bit pair left by b[5:0]. (R155) -/
  | sshl64 (d : BitVec 6) (a : BitVec 6) (b : BitVec 6) (i : BitVec 1)
  /-- SSHR64: Shifts a 64-bit pair right logically by b[5:0]. (R155) -/
  | sshr64 (d : BitVec 6) (a : BitVec 6) (b : BitVec 6) (i : BitVec 1)
  /-- SLD: Loads z bytes through a buffer record into a scalar or a scalar pair. (R215) -/
  | sld (d : BitVec 6) (i : BitVec 6) (n : BitVec 4) (z : BitVec 3)
  /-- SST: Stores the low z bytes of a scalar through a buffer record. (R215) -/
  | sst (s : BitVec 6) (i : BitVec 6) (n : BitVec 4) (z : BitVec 3)
  /-- SATOM: Performs a scalar atomic read-modify-write and returns the old value. (R216) -/
  | satom (s : BitVec 6) (i : BitVec 6) (n : BitVec 4) (z : BitVec 3) (o : BitVec 3)
  /-- SCAS: Compares and swaps atomically, returning the old value. (R217) -/
  | scas (s : BitVec 6) (i : BitVec 6) (n : BitVec 4) (z : BitVec 3)
  /-- SGET: Reads a special register into a scalar. (R156) -/
  | sget (d : BitVec 6) (n : BitVec 16)
  /-- SSETX: Writes %fpflags or %srctr from a scalar. (R157) -/
  | ssetx (s : BitVec 6) (n : BitVec 16)
  /-- DLOAD: Loads a 128-bit buffer record through another record and checks it. (R214) -/
  | dload (m : BitVec 4) (i : BitVec 6) (n : BitVec 4)
  /-- DMAKE: Builds a buffer record from four scalars and checks it. (R214) -/
  | dmake (s : BitVec 6) (n : BitVec 4)
  /-- DSET: Changes one field of a buffer record, or advances it, and checks the record. (R214) -/
  | dset (s : BitVec 6) (n : BitVec 4) (o : BitVec 3)
  /-- DGET: Copies a buffer record into four scalars. (R214) -/
  | dget (s : BitVec 6) (n : BitVec 4)
  /-- PGREQ: Walks a virtual address and joins or starts a pager future, optionally waiting on it. (R246) -/
  | pgreq (s : BitVec 6) (w : BitVec 1) (t : BitVec 1)
  /-- FENCE: Orders the issuing fragment's accesses by its HMOD ordering and scope. (R265) -/
  | fence
  /-- SLDK: Loads 4 bytes of the grid's argument block into a scalar. (R432) -/
  | sldk (d : BitVec 6) (n : BitVec 16)
  /-- BRA: Branches unconditionally. (R159) -/
  | bra (o : BitVec 22)
  /-- BRAC: Branches on a condition bit. (R159) -/
  | brac (c : BitVec 3) (s : BitVec 1) (o : BitVec 18)
  /-- BRAK: Sends the lanes whose mask bit matches to the target, splitting the fragment. (R159) -/
  | brak (k : BitVec 3) (s : BitVec 1) (o : BitVec 18)
  /-- BRAKA: Branches when every active lane's mask bit matches. (R159) -/
  | braka (k : BitVec 3) (s : BitVec 1) (o : BitVec 18)
  /-- CALL: Pushes the return address and branches. (R161) -/
  | call (o : BitVec 22)
  /-- CALLI: Calls through entry s + n of the kernel's indirect table. (R161) -/
  | calli (s : BitVec 6) (n : BitVec 16)
  /-- RET: Pops the return stack, or acts as EXIT when it is empty. (R161) -/
  | ret
  /-- JMPI: Jumps to a 64-bit address held in a scalar pair plus an offset. (R161) -/
  | jmpi (s : BitVec 6) (n : BitVec 16)
  /-- CVSET: Pushes a convergence entry with the fragment's active lanes. (R164) -/
  | cvset (o : BitVec 22)
  /-- CVWAIT: Waits at a matching convergence entry until its lanes arrive, or continues. (R165) -/
  | cvwait
  /-- EXIT: Ends the active lanes of the fragment, or the copy or maths warp. (R163) -/
  | exit
  /-- NOP: Does nothing. (R163) -/
  | nop
  /-- YIELD: Makes the fragment rank youngest on its port until its next issue. (R163) -/
  | yield
  /-- LOOP: Decrements a scalar and branches while it is not zero. (R162) -/
  | loop (s : BitVec 6) (o : BitVec 16)
  /-- VADD: Adds lanes or sub-elements, with optional saturation. (R173) -/
  | vadd (d : BitVec 7) (a : BitVec 7) (b : BitVec 7) (i : BitVec 1)
  /-- VAVG: Writes the rounded-up average of lanes or sub-elements. (R173) -/
  | vavg (d : BitVec 7) (a : BitVec 7) (b : BitVec 7) (i : BitVec 1)
  /-- VSUB: Subtracts lanes or sub-elements. (R173) -/
  | vsub (d : BitVec 7) (a : BitVec 7) (b : BitVec 7) (i : BitVec 1)
  /-- VMUL: Multiplies lanes or sub-elements. (R173) -/
  | vmul (d : BitVec 7) (a : BitVec 7) (b : BitVec 7) (i : BitVec 1)
  /-- VMULHI: Writes the high half of the signed product. (R173) -/
  | vmulhi (d : BitVec 7) (a : BitVec 7) (b : BitVec 7) (i : BitVec 1)
  /-- VMULHU: Writes the high half of the unsigned product. (R173) -/
  | vmulhu (d : BitVec 7) (a : BitVec 7) (b : BitVec 7) (i : BitVec 1)
  /-- VMAD: Adds a product into the destination. (R173) -/
  | vmad (d : BitVec 7) (a : BitVec 7) (b : BitVec 7) (i : BitVec 1)
  /-- VAND: Bitwise AND of lanes. (R173) -/
  | vand (d : BitVec 7) (a : BitVec 7) (b : BitVec 7) (i : BitVec 1)
  /-- VOR: Bitwise OR of lanes. (R173) -/
  | vor (d : BitVec 7) (a : BitVec 7) (b : BitVec 7) (i : BitVec 1)
  /-- VXOR: Bitwise XOR of lanes. (R173) -/
  | vxor (d : BitVec 7) (a : BitVec 7) (b : BitVec 7) (i : BitVec 1)
  /-- VANDN: Writes a AND NOT b per lane. (R173) -/
  | vandn (d : BitVec 7) (a : BitVec 7) (b : BitVec 7) (i : BitVec 1)
  /-- VSHL: Shifts lanes or sub-elements left. (R173) -/
  | vshl (d : BitVec 7) (a : BitVec 7) (b : BitVec 7) (i : BitVec 1)
  /-- VSHR: Shifts lanes or sub-elements right logically. (R173) -/
  | vshr (d : BitVec 7) (a : BitVec 7) (b : BitVec 7) (i : BitVec 1)
  /-- VSRA: Shifts lanes or sub-elements right arithmetically. (R173) -/
  | vsra (d : BitVec 7) (a : BitVec 7) (b : BitVec 7) (i : BitVec 1)
  /-- VMIN: Signed minimum per lane or sub-element. (R173) -/
  | vmin (d : BitVec 7) (a : BitVec 7) (b : BitVec 7) (i : BitVec 1)
  /-- VMAX: Signed maximum per lane or sub-element. (R173) -/
  | vmax (d : BitVec 7) (a : BitVec 7) (b : BitVec 7) (i : BitVec 1)
  /-- VMINU: Unsigned minimum per lane or sub-element. (R173) -/
  | vminu (d : BitVec 7) (a : BitVec 7) (b : BitVec 7) (i : BitVec 1)
  /-- VMAXU: Unsigned maximum per lane or sub-element. (R173) -/
  | vmaxu (d : BitVec 7) (a : BitVec 7) (b : BitVec 7) (i : BitVec 1)
  /-- VABSD: Writes the absolute difference per lane or sub-element. (R173) -/
  | vabsd (d : BitVec 7) (a : BitVec 7) (b : BitVec 7) (i : BitVec 1)
  /-- VSAD: Accumulates the sum of absolute sub-element differences into each lane. (R174) -/
  | vsad (d : BitVec 7) (a : BitVec 7) (b : BitVec 7) (i : BitVec 1)
  /-- VCMP: Compares lanes and writes the active bits of a mask register. (R175) -/
  | vcmp (k : BitVec 3) (c : BitVec 4) (a : BitVec 7) (b : BitVec 7) (i : BitVec 1)
  /-- VSEL: Writes all 32 lanes from a or b by the governing mask. (R176) -/
  | vsel (d : BitVec 7) (a : BitVec 7) (b : BitVec 7) (i : BitVec 1)
  /-- VMOV: Copies a vector register. (R173) -/
  | vmov (d : BitVec 7) (a : BitVec 7)
  /-- VMOVI: Writes an immediate to every governed lane. (R177) -/
  | vmovi (d : BitVec 7) (i : BitVec 15)
  /-- VMOVS: Broadcasts a scalar to every governed lane. (R177) -/
  | vmovs (d : BitVec 7) (s : BitVec 6)
  /-- VCLZ: Counts leading zeros per lane or sub-element. (R173) -/
  | vclz (d : BitVec 7) (a : BitVec 7)
  /-- VPOPC: Counts one bits per lane or sub-element. (R173) -/
  | vpopc (d : BitVec 7) (a : BitVec 7)
  /-- VBFE: Extracts a bit field in each lane. (R178) -/
  | vbfe (d : BitVec 7) (a : BitVec 7) (b : BitVec 7) (i : BitVec 1)
  /-- VBFI: Inserts a bit field in each lane. (R178) -/
  | vbfi (d : BitVec 7) (a : BitVec 7) (b : BitVec 7) (i : BitVec 1)
  /-- VADD64: Adds 64-bit values in register pairs. (R179) -/
  | vadd64 (d : BitVec 7) (a : BitVec 7) (b : BitVec 7) (i : BitVec 1)
  /-- VSUB64: Subtracts 64-bit values in register pairs. (R179) -/
  | vsub64 (d : BitVec 7) (a : BitVec 7) (b : BitVec 7) (i : BitVec 1)
  /-- VIDX: Writes the lane number plus an offset to each governed lane. (R177) -/
  | vidx (d : BitVec 7) (i : BitVec 1)
  /-- VFADD: Adds floating-point lanes at the chosen precision. (R181) -/
  | vfadd (p : BitVec 2) (d : BitVec 7) (a : BitVec 7) (b : BitVec 7) (i : BitVec 1)
  /-- VFSUB: Subtracts floating-point lanes. (R181) -/
  | vfsub (p : BitVec 2) (d : BitVec 7) (a : BitVec 7) (b : BitVec 7) (i : BitVec 1)
  /-- VFMUL: Multiplies floating-point lanes. (R181) -/
  | vfmul (p : BitVec 2) (d : BitVec 7) (a : BitVec 7) (b : BitVec 7) (i : BitVec 1)
  /-- VFMA: Computes a × b + c with one rounding. (R181) -/
  | vfma (p : BitVec 2) (d : BitVec 7) (a : BitVec 7) (b : BitVec 7) (i : BitVec 1)
  /-- VFMIN: Writes the lesser floating-point operand. (R184) -/
  | vfmin (p : BitVec 2) (d : BitVec 7) (a : BitVec 7) (b : BitVec 7) (i : BitVec 1)
  /-- VFMAX: Writes the greater floating-point operand. (R184) -/
  | vfmax (p : BitVec 2) (d : BitVec 7) (a : BitVec 7) (b : BitVec 7) (i : BitVec 1)
  /-- VFCMP: Compares floating-point lanes and writes a mask. (R185) -/
  | vfcmp (p : BitVec 2) (k : BitVec 3) (c : BitVec 4) (a : BitVec 7) (b : BitVec 7) (i : BitVec 1)
  /-- VFRND: Rounds each element to an integer value in its own format. (R186) -/
  | vfrnd (p : BitVec 2) (d : BitVec 7) (a : BitVec 7)
  /-- VFCLS: Writes a one-hot class mask for each element. (R187) -/
  | vfcls (p : BitVec 2) (d : BitVec 7) (a : BitVec 7)
  /-- VFRCP: Writes the correctly rounded binary32 reciprocal. (R189) -/
  | vfrcp (d : BitVec 7) (a : BitVec 7)
  /-- VFRSQ: Writes the binary32 reciprocal square root. (R189) -/
  | vfrsq (d : BitVec 7) (a : BitVec 7)
  /-- VFSQRT: Writes the correctly rounded square root. (R188) -/
  | vfsqrt (p : BitVec 1) (d : BitVec 7) (a : BitVec 7)
  /-- VFDIV: Writes the correctly rounded quotient. (R188) -/
  | vfdiv (p : BitVec 1) (d : BitVec 7) (a : BitVec 7) (b : BitVec 7) (i : BitVec 1)
  /-- VFEXP2: Writes 2^a in binary32. (R189) -/
  | vfexp2 (d : BitVec 7) (a : BitVec 7)
  /-- VFLOG2: Writes log2 a in binary32. (R189) -/
  | vflog2 (d : BitVec 7) (a : BitVec 7)
  /-- VFTRIG: Writes sin, cos or tanh of a in binary32. (R189) -/
  | vftrig (d : BitVec 7) (a : BitVec 7) (t : BitVec 7)
  /-- VLD: Loads each governed lane through a buffer record. (R219) -/
  | vld (d : BitVec 7) (i : BitVec 7) (n : BitVec 4) (z : BitVec 3) (t : BitVec 1)
  /-- VLDP: Loads resident lanes without waiting and writes a mask of the lanes read. (R222) -/
  | vldp (d : BitVec 7) (i : BitVec 7) (n : BitVec 4) (k : BitVec 3) (w : BitVec 1)
  /-- VST: Stores each governed lane through a buffer record. (R219) -/
  | vst (s : BitVec 7) (i : BitVec 7) (n : BitVec 4) (z : BitVec 3) (t : BitVec 1)
  /-- VLDS: Loads each governed lane from scratchpad. (R231) -/
  | vlds (d : BitVec 7) (a : BitVec 7) (z : BitVec 3) (o : BitVec 5)
  /-- VSTS: Stores each governed lane to scratchpad. (R231) -/
  | vsts (s : BitVec 7) (a : BitVec 7) (z : BitVec 3) (o : BitVec 5)
  /-- VPREF: Brings the addressed lines into L2 without faulting or waiting. (R223) -/
  | vpref (i : BitVec 7) (n : BitVec 4) (t : BitVec 1)
  /-- VATOM: Performs a global atomic per lane and returns the old value. (R227) -/
  | vatom (f : BitVec 6) (d : BitVec 6) (i : BitVec 6) (s : BitVec 6) (n : BitVec 4)
  /-- VCAS: Compares and swaps a global word per lane. (R227) -/
  | vcas (d : BitVec 6) (i : BitVec 6) (s : BitVec 6) (n : BitVec 4)
  /-- VRED: Performs a global atomic per lane and returns nothing. (R227) -/
  | vred (o : BitVec 6) (i : BitVec 6) (s : BitVec 6) (n : BitVec 4)
  /-- VSATOM: Performs a locked scratchpad atomic per lane. (R233) -/
  | vsatom (d : BitVec 6) (a : BitVec 6) (s : BitVec 6) (o : BitVec 4)
  /-- VSCAS: Compares and swaps a scratchpad word per lane under its lock. (R233) -/
  | vscas (d : BitVec 6) (a : BitVec 6) (s : BitVec 6)
  /-- VLDL: Loads scratchpad words and takes their locks, deferring lanes that cannot. (R234) -/
  | vldl (d : BitVec 7) (a : BitVec 7) (o : BitVec 5)
  /-- VSTUL: Stores scratchpad words and releases the lanes' locks. (R234) -/
  | vstul (s : BitVec 7) (a : BitVec 7) (o : BitVec 5)
  /-- VSHFL: Fetches for each lane the lane of a that b names. (R194) -/
  | vshfl (d : BitVec 7) (a : BitVec 7) (b : BitVec 7) (i : BitVec 1)
  /-- VPERM: Permutes bytes within each lane under control of vd. (R195) -/
  | vperm (d : BitVec 7) (a : BitVec 7) (b : BitVec 7)
  /-- VMATCH: Groups lanes by equal keys, writing match masks and leaders. (R196) -/
  | vmatch (k : BitVec 3) (a : BitVec 7) (m : BitVec 7)
  /-- VBALLOT: Writes a whole mask of the predicate in each governed lane. (R197) -/
  | vballot (k : BitVec 3) (c : BitVec 4) (a : BitVec 7) (b : BitVec 7) (i : BitVec 1)
  /-- VVOTE: Writes whether the predicate holds in every governed lane. (R197) -/
  | vvote (k : BitVec 3) (c : BitVec 4) (a : BitVec 7) (b : BitVec 7) (i : BitVec 1)
  /-- VREDX: Reduces the governed lanes and broadcasts the result. (R201) -/
  | vredx (d : BitVec 7) (a : BitVec 7) (o : BitVec 7)
  /-- VSCANX: Writes an inclusive or exclusive scan over the governed lanes. (R201) -/
  | vscanx (d : BitVec 7) (a : BitVec 7) (o : BitVec 7)
  /-- VELECT: Sets the mask bit of the lowest governed lane. (R197) -/
  | velect (k : BitVec 3)
  /-- KAND: ANDs two masks. (R198) -/
  | kand (d : BitVec 3) (a : BitVec 3) (b : BitVec 3)
  /-- KOR: ORs two masks. (R198) -/
  | kor (d : BitVec 3) (a : BitVec 3) (b : BitVec 3)
  /-- KXOR: XORs two masks. (R198) -/
  | kxor (d : BitVec 3) (a : BitVec 3) (b : BitVec 3)
  /-- KNOT: Inverts a mask. (R198) -/
  | knot (d : BitVec 3) (a : BitVec 3)
  /-- KMOV: Copies a mask. (R198) -/
  | kmov (d : BitVec 3) (a : BitVec 3)
  /-- KCNT: Counts the set bits of a mask into a scalar. (R199) -/
  | kcnt (s : BitVec 6) (k : BitVec 3)
  /-- KFIRST: Writes the lowest set lane of a mask, or 32. (R199) -/
  | kfirst (s : BitVec 6) (k : BitVec 3)
  /-- KTOS: Copies a mask into a scalar. (R199) -/
  | ktos (s : BitVec 6) (k : BitVec 3)
  /-- STOK: Copies a scalar into a mask. (R199) -/
  | stok (s : BitVec 6) (k : BitVec 3)
  /-- VPACKB: Packs 32 bytes into a stream of 8 lanes. (R203) -/
  | vpackb (d : BitVec 7) (a : BitVec 7) (p : BitVec 7)
  /-- VPACKN: Packs 32 nibbles into a stream of 4 lanes. (R203) -/
  | vpackn (d : BitVec 7) (a : BitVec 7) (p : BitVec 7)
  /-- VPACK6: Packs 32 6-bit codes into a stream of 6 lanes. (R203) -/
  | vpack6 (d : BitVec 7) (a : BitVec 7) (p : BitVec 7)
  /-- VUNPK6: Unpacks 6-bit codes from a stream into lanes. (R204) -/
  | vunpk6 (d : BitVec 7) (a : BitVec 7) (p : BitVec 7)
  /-- VCMPR: Gathers the governed lanes into a dense list. (R205) -/
  | vcmpr (d : BitVec 7) (a : BitVec 7)
  /-- VXPND: Spreads list elements onto the governed lanes. (R206) -/
  | vxpnd (d : BitVec 7) (a : BitVec 7)
  /-- TMMA: Queues a multiply of scratchpad operands into a tile. (R284) -/
  | tmma (t : BitVec 4) (a : BitVec 6) (b : BitVec 6) (c : BitVec 3)
  /-- TMMAX: Queues a multiply with operands from other span cores or multicast. (R285) -/
  | tmmax (t : BitVec 4) (a : BitVec 6) (b : BitVec 6) (c : BitVec 3)
  /-- TZERO: Queues the zeroing of a tile and its side registers. (R291) -/
  | tzero (t : BitVec 4)
  /-- TFILL: Queues the filling of a tile with a value. (R291) -/
  | tfill (t : BitVec 4) (a : BitVec 6)
  /-- TSCALE: Queues the scaling of a tile by a factor or factor array. (R291) -/
  | tscale (t : BitVec 4) (a : BitVec 6) (b : BitVec 6)
  /-- TSMX: Queues a row rescale of a tile from another tile's side registers. (R293) -/
  | tsmx (t : BitVec 4) (a : BitVec 6) (b : BitVec 6)
  /-- TDRAIN: Queues the conversion of a tile window to scratchpad, tracking amax. (R296) -/
  | tdrain (t : BitVec 4) (a : BitVec 6) (b : BitVec 6)
  /-- TAMAXR: Reads a tile's amax into scalars. (R297) -/
  | tamaxr (t : BitVec 4) (a : BitVec 6)
  /-- TSIDER: Reads a row's softmax side registers. (R294) -/
  | tsider (t : BitVec 4) (a : BitVec 6) (b : BitVec 6)
  /-- TSIDEW: Queues a write of a row's softmax side registers. (R294) -/
  | tsidew (t : BitVec 4) (a : BitVec 6) (b : BitVec 6)
  /-- TGANG: Binds or unbinds a tile across the span. (R288) -/
  | tgang (t : BitVec 4) (a : BitVec 6)
  /-- TFENCE: Orders later engine operations after earlier ones' writes on every span engine. (R301) -/
  | tfence
  /-- TWAIT: Waits for the warp's earlier engine operations on a tile. (R298) -/
  | twait (t : BitVec 4)
  /-- CPY: Issues a copy from global memory into scratchpad. (R311) -/
  | cpy (n : BitVec 4) (c : BitVec 6) (s : BitVec 6) (b : BitVec 4) (m : BitVec 2)
  /-- CPYS: Issues a copy from scratchpad into global memory. (R311) -/
  | cpys (n : BitVec 4) (c : BitVec 6) (s : BitVec 6) (b : BitVec 4) (m : BitVec 2)
  /-- CPYT: Issues a store of a tile plain and transposed. (R312) -/
  | cpyt (n : BitVec 4) (c : BitVec 6) (s : BitVec 6) (b : BitVec 4) (m : BitVec 2)
  /-- CPYM: Issues a multicast copy to several scratchpads or global destinations. (R313) -/
  | cpym (n : BitVec 4) (c : BitVec 6) (s : BitVec 6) (b : BitVec 4) (m : BitVec 2)
  /-- CPYR: Issues a reducing copy into global memory. (R314) -/
  | cpyr (n : BitVec 4) (c : BitVec 6) (s : BitVec 6) (b : BitVec 4) (m : BitVec 2)
  /-- CPYG: Issues a gather of rows by an index list. (R315) -/
  | cpyg (n : BitVec 4) (c : BitVec 6) (s : BitVec 6) (b : BitVec 4) (m : BitVec 2)
  /-- CPYP: Issues a prefetch of the lines a copy would read. (R323) -/
  | cpyp (n : BitVec 4) (c : BitVec 6) (s : BitVec 6) (m : BitVec 2)
  /-- CPYW: Waits for the warp's accepted copies to complete. (R324) -/
  | cpyw
  /-- CPYX: Cancels the warp's queued copies and credits their bytes. (R325) -/
  | cpyx (c : BitVec 6)
  /-- QPUSH: Takes the next slot and fills it with a handle. (R335) -/
  | qpush (q : BitVec 4) (s : BitVec 6)
  /-- QPOP: Takes the oldest Full slot, waiting if needed. (R337) -/
  | qpop (q : BitVec 4) (s : BitVec 6)
  /-- QTRY: Takes the oldest Full slot if there is one, without waiting. (R337) -/
  | qtry (q : BitVec 4) (s : BitVec 6)
  /-- QRSV: Reserves the next slot for the producer. (R335) -/
  | qrsv (q : BitVec 4) (s : BitVec 6)
  /-- QCMT: Commits a handle into a Reserved slot. (R336) -/
  | qcmt (q : BitVec 4) (s : BitVec 6)
  /-- QREL: Returns a Taken slot to Empty. (R338) -/
  | qrel (q : BitVec 4) (s : BitVec 6)
  /-- QLEN: Writes the slot-state counts of a queue instance. (R339) -/
  | qlen (q : BitVec 4) (s : BitVec 6)
  /-- MBSEND: Offers a message to a mailbox and returns a status. (R345) -/
  | mbsend (s : BitVec 6) (m : BitVec 8)
  /-- MBRECV: Pops the oldest receivable message of a mailbox or reports why not. (R347) -/
  | mbrecv (s : BitVec 6) (m : BitVec 8)
  /-- BINIT: Reinitialises a barrier with a new role mask. (R362) -/
  | binit (b : BitVec 4) (s : BitVec 6)
  /-- BARV: Arrives at a barrier without waiting. (R359) -/
  | barv (b : BitVec 4)
  /-- BARW: Waits for the phase of a given parity to complete. (R360) -/
  | barw (b : BitVec 4) (s : BitVec 6) (o : BitVec 1)
  /-- BARX: Adds expected bytes to a barrier and arrives unless NA is set. (R359) -/
  | barx (b : BitVec 4) (s : BitVec 6) (a : BitVec 1)
  /-- BSYNC: Arrives at a barrier and waits for the phase to complete. (R359) -/
  | bsync (b : BitVec 4)
  /-- BPHASE: Reads a barrier's phase number and the warp's arrival and parity. (R361) -/
  | bphase (b : BitVec 4) (s : BitVec 6)
  /-- GGROW: Requests attaches of warps of a role, or withdraws the pending requests. (R372) -/
  | ggrow (s : BitVec 6) (c : BitVec 1) (r : BitVec 2) (n : BitVec 8)
  /-- GLEAVE: Ends the issuing warp at once and departs its barriers. (R374) -/
  | gleave
  /-- GINFO: Reads live, pending, maximum, eviction count or span map of the group. (R375) -/
  | ginfo (s : BitVec 6) (e : BitVec 3)
  /-- KLAUNCH: Appends a packet to a device-fed submission queue. (R435) -/
  | klaunch (s : BitVec 6) (q : BitVec 6)
  /-- SIGADD: Adds to or sets a 64-bit completion signal atomically. (R433) -/
  | sigadd (s : BitVec 6) (e : BitVec 1)
  /-- SIGWAIT: Waits until a 64-bit signal reaches a value, or tests it. (R434) -/
  | sigwait (s : BitVec 6) (e : BitVec 1)
  /-- RGCLM: Raises the warp's register budget, waiting for steps if needed. (R125) -/
  | rgclm (s : BitVec 6) (n : BitVec 5)
  /-- RGGIV: Lowers the warp's register budget and returns steps to the pool. (R126) -/
  | rggiv (s : BitVec 6) (n : BitVec 5)
  /-- RDEF: Records the following words as the body of a recipe slot. (R137) -/
  | rdef (c : BitVec 2) (x : BitVec 4)
  /-- RTAG: Evaluates a recipe, writes the register and tags it with the slot. (R138) -/
  | rtag (d : BitVec 7) (x : BitVec 4)
  /-- RSEAL: Makes a tagged register ordinary, replaying it if Dropped. (R139) -/
  | rseal (d : BitVec 7)
  /-- RDROP: Drops the value of a Tagged-live register. (R140) -/
  | rdrop (d : BitVec 7)
  /-- RFREE: Empties a recipe slot, sealing its register first. (R141) -/
  | rfree (x : BitVec 4)
  /-- RGQRY: Reads the pool, tag, held and budget counts. (R127) -/
  | rgqry (s : BitVec 6)
  /-- FMTSET: Writes a legal word into a writable format entry of the context. (R95) -/
  | fmtset (f : BitVec 4) (s : BitVec 6)
  /-- FMTGET: Reads a format entry word. (R96) -/
  | fmtget (f : BitVec 4) (s : BitVec 6)
  /-- FMTCHK: Writes the legality status of a format entry. (R97) -/
  | fmtchk (f : BitVec 4) (s : BitVec 6)
  /-- VCVT: Converts each governed element between format entries. (R98) -/
  | vcvt (d : BitVec 7) (a : BitVec 7) (g : BitVec 4) (f : BitVec 4)
  /-- VCVTO: Converts elements and sets aside outliers above a threshold in k7. (R99) -/
  | vcvto (d : BitVec 7) (a : BitVec 7) (g : BitVec 4) (f : BitVec 4)
  /-- VCVTS: Computes the block scale of the destination entry for each block. (R100) -/
  | vcvts (d : BitVec 7) (a : BitVec 7) (g : BitVec 4) (f : BitVec 4)
  /-- TRAP: Raises the TRAP fault. (R407) -/
  | trap (n : BitVec 8)
  /-- ASSERT: Raises the ASSERT fault when the scalar is zero. (R407) -/
  | assert (s : BitVec 6) (n : BitVec 8)
  /-- CLKR: Reads device time or the core clock count. (R408) -/
  | clkr (s : BitVec 6) (e : BitVec 1)
  /-- FEATR: Reads a word of the latched features, stepping or firmware version. (R409) -/
  | featr (s : BitVec 6) (n : BitVec 2)
  /-- SLEEP: Holds the fragment not ready for n to n + 64 clocks. (R410) -/
  | sleep (n : BitVec 16)
  /-- CSRD: Reads a context state register, subject to access rights. (R411) -/
  | csrd (s : BitVec 6) (r : BitVec 8)
  /-- CSWR: Writes a context state register, subject to access rights. (R411) -/
  | cswr (s : BitVec 6) (r : BitVec 8)
  /-- SAMPM: Sets the warp's sample mark. (R412) -/
  | sampm (n : BitVec 16)
  /-- BKPT: Raises the BKPT fault when breakpoints are enabled. (R407) -/
  | bkpt (n : BitVec 8)
  /-- HSCH: Sets stalls, last-read marks and yield for the next three instructions. (R51) -/
  | hsch (a : BitVec 4) (b : BitVec 1) (c : BitVec 1) (d : BitVec 4) (e : BitVec 1) (f : BitVec 1) (g : BitVec 4) (h : BitVec 1) (j : BitVec 1) (y : BitVec 1)
  /-- HIMM: Supplies a 22-bit immediate to the chain's instruction. (R55) -/
  | himm (i : BitVec 22)
  /-- HIMMX: Supplies the high 10 bits of the chain's immediate. (R55) -/
  | himmx (x : BitVec 10)
  /-- HMOD: Supplies scope, ordering, rounding, width, selectors and modifiers. (R57) -/
  | hmod (s : BitVec 3) (o : BitVec 2) (r : BitVec 3) (t : BitVec 1) (w : BitVec 2) (a : BitVec 3) (b : BitVec 3) (n : BitVec 1) (m : BitVec 1) (x : BitVec 1) (y : BitVec 1) (g : BitVec 1)
  /-- HPRED: Sets the governing mask of the chain's instruction from a mask register. (R59) -/
  | hpred (k : BitVec 3) (v : BitVec 1)
  /-- HPERM: Routes operands a and b through the read crossbar. (R60) -/
  | hperm (p : BitVec 3) (a : BitVec 5) (q : BitVec 3) (b : BitVec 5) (s : BitVec 6)
  /-- UNASSIGNED_ENCODING: A fragment issues a word of class 0xF, an unassigned function code or an unlisted class 0x4 pair, and it raises UD. (R38) -/
  | unassignedEncoding (word : BitVec 32)
  /-- REGISTER_ARBITER: When every warp of a core blocks with an ungrantable claim, the arbiter drops tags, evicts or raises BUDGETDL. (R128) -/
  | registerArbiter (core : Nat)
  /-- FRAGMENT_PROMOTION: A fragment ready 64 clocks without issue is promoted. (R110) -/
  | fragmentPromotion (warp frag : Nat)
  /-- SLEEP_EXPIRE: The SLEEP count ends and the fragment becomes ready. (R410) -/
  | sleepExpire (warp frag : Nat)
  /-- FORMAT_UPDATE_COMPLETE: The last replica holds the new entry word and the entry becomes Set. (R79) -/
  | formatUpdateComplete (part slot n : Nat)
  /-- TILE_OP_COMPLETE: An engine operation completes on a core and its waiters may proceed. (R299) -/
  | tileOpComplete (core : Nat)
  /-- COPY_OWNERSHIP_GRANT: A home slice grants a copy ownership of a destination line. (R319) -/
  | copyOwnershipGrant (line : Nat)
  /-- COPY_START: The copy unit starts moving data for the oldest accepted copy. (R305) -/
  | copyStart (core : Nat)
  /-- COPY_COMPLETE: A copy's writes have performed and it credits its barrier. (R322) -/
  | copyComplete (core copy : Nat)
  /-- STORE_BUFFER_TIMEOUT: A store-buffer entry older than 4 096 clocks performs. (R256) -/
  | storeBufferTimeout (core : Nat)
  /-- PROMOTION_DRAIN_REQUEST: A core receives a drain request and performs its tagged store-buffer entries. (R268) -/
  | promotionDrainRequest (line : Nat)
  /-- PROMOTION_DRAIN_REPLY: The slice receives the drain reply, clears the tag and completes the read. (R268) -/
  | promotionDrainReply (line : Nat)
  /-- FLOW_MESSAGE_ARRIVAL: A flow message reaches its reorder buffer and is delivered once, in order where required. (R441) -/
  | flowMessageArrival (flow : Nat)
  /-- FLOW_ACKNOWLEDGEMENT: A cumulative acknowledgement frees held messages at the sender. (R441) -/
  | flowAcknowledgement (flow : Nat)
  /-- PEER_REFUSAL: A peer acknowledges a write or atomic with a refusal and a PROT record is written. (R444) -/
  | peerRefusal (flow : Nat)
  /-- PERMIT_RETURN: A receiver frees a slot and returns a permit to the sender. (R442) -/
  | permitReturn (link cls : Nat)
  /-- PERMIT_AUDIT: The periodic audit counts permits and slots of a link and class. (R443) -/
  | permitAudit (link : Nat) (c0 c1 c2 c3 : ClassAudit)
  /-- LINK_ERROR: An error that needs retraining sends an Up or Degraded link to Training. (R436) -/
  | linkError (link : Nat)
  /-- LINK_TRAINING_DONE: Training ends at full or reduced width and permits are restored. (R436) -/
  | linkTrainingDone (link : Nat) (full : Bool)
  /-- LINK_TRAINING_FAIL: Training fails and retries, or the link goes Down after three failures. (R436) -/
  | linkTrainingFail (link : Nat)
  /-- LINK_ENABLE: The driver enables a link, which begins Training. (R447) -/
  | linkEnable (link : Nat)
  /-- LINK_DISABLE: The driver disables a link and its messages move or are held. (R447) -/
  | linkDisable (link : Nat)
  /-- REMOTE_WAIT_THRESHOLD: A remote load or atomic outstanding longer than RWTH becomes a blocking point. (R445) -/
  | remoteWaitThreshold (warp frag : Nat)
  /-- HOST_MEM_ACCESS: A host access over CXL.mem performs at the line's home slice. (R440) -/
  | hostMemAccess (addr : Nat) (data : List (BitVec 8)) (write : Bool)
  /-- BACK_INVALIDATE_RESPONSE: The host's response to a back-invalidate snoop lets the device access perform. (R440) -/
  | backInvalidateResponse (line : Nat)
  /-- MESSAGE_RECEIVABLE: An accepted mailbox message becomes receivable within its class bound. (R346) -/
  | messageReceivable (mbox : Nat)
  /-- PLACEMENT_ATTEMPT: The headbox tries to place unplaced groups, by trigger or every microsecond. (R369) -/
  | placementAttempt (part : Nat)
  /-- EVICTION: At instant E a Waiting group begins eviction. (R379) -/
  | eviction (group : Nat)
  /-- PHASE_RECORD_COMPLETE: The phase record is written and the group's resources are freed. (R379) -/
  | phaseRecordComplete (group : Nat)
  /-- GROUP_RESTORE: A placed evicted group is restored and its fragments resume by wake code. (R386) -/
  | groupRestore (group : Nat)
  /-- ATTACH_SERVED: The headbox attaches a warp for a pending GGROW request. (R373) -/
  | attachServed (group : Nat) (role : RoleCode)
  /-- GROUP_RETIRE: A Retiring group's copies, engine operations and stores complete and it retires. (R365) -/
  | groupRetire (group : Nat)
  /-- PREEMPT_LATE: A group not Waiting within PDL of a request raises PREEMPT_LATE. (R380) -/
  | preemptLate (group : Nat)
  /-- HUNG: A group hung for PDL raises the HUNG event. (R387) -/
  | hung (group : Nat)
  /-- EVTH_AFTER_EVICTION: One EVTH after E a group evicted on a remote load becomes resumable. (R385) -/
  | evthAfterEviction (group : Nat)
  /-- SIGWAIT_POLL: A waiting SIGWAIT on host or peer memory is re-tested every microsecond. (R434) -/
  | sigwaitPoll (warp frag : Nat)
  /-- PACKET_READ: The headbox reads the next packet of a queue and tests its BAR and DEP conditions. (R426) -/
  | packetRead (part slot queue : Nat)
  /-- DEPENDENCE_POLL: The dependence of a blocked packet is re-tested on a signal write or every microsecond. (R426) -/
  | dependencePoll (part slot queue : Nat)
  /-- PACKET_BARRIER: A type 0 packet completes once its BAR and DEP conditions hold. (R425) -/
  | packetBarrier (part slot queue : Nat)
  /-- LAUNCH: A ready LAUNCH packet admits its grid: arguments, format entries and Pending groups. (R429) -/
  | launch (part slot queue : Nat)
  /-- SIGNAL: A ready SIGNAL packet adds DADD to DONE. (R426) -/
  | signal (part slot queue : Nat)
  /-- SHOOTDOWN: A ready SHOOTDOWN packet invalidates translations of a range. (R242) -/
  | shootdown (part slot queue : Nat)
  /-- SHOOTDOWN_COMPLETE: Copies holding translations in the range complete and DONE is added. (R242) -/
  | shootdownComplete (part slot queue : Nat)
  /-- GRID_COMPLETE: After its last group retires and its work performs, the grid adds DADD to DONE. (R430) -/
  | gridComplete (grid : Nat)
  /-- HELD_RECORD_RETRY: Held records and requests are written again on a queue register write or every 100 µs. (R492) -/
  | heldRecordRetry (part slot : Nat)
  /-- CREATE: The CREATE command takes a context slot and sets CTXID. (R390) -/
  | create (part slot : Nat) (arg : BitVec 32)
  /-- SAVE: The SAVE command stops admission and requests pre-emption of every resident group. (R390) -/
  | save (part slot : Nat)
  /-- SAVE_COMPLETE: When every group is Evicted and work is done, the context block is written and the context is Suspended. (R390) -/
  | saveComplete (part slot : Nat)
  /-- RESUME: The RESUME command restores the context block and makes its groups resumable. (R390) -/
  | resume (part slot : Nat)
  /-- DESTROY: The DESTROY command kills every warp and waits for accepted work. (R390) -/
  | destroy (part slot : Nat)
  /-- DESTROY_COMPLETE: Accepted work ends, futures and records are discarded and the slot is freed. (R390) -/
  | destroyComplete (part slot : Nat)
  /-- FAULT_ANSWER_RESUME: A RESUME answer to a live record re-executes the faulting instruction. (R402) -/
  | faultAnswerResume (part slot : Nat) (seq : BitVec 24)
  /-- FAULT_ANSWER_SKIP: A SKIP answer continues after the faulting instruction. (R402) -/
  | faultAnswerSkip (part slot : Nat) (seq : BitVec 24)
  /-- FAULT_ANSWER_KILL: A KILL answer ends the parked lanes. (R402) -/
  | faultAnswerKill (part slot : Nat) (seq : BitVec 24)
  /-- PAGER_DOORBELL_RETRY: A retry answer frees a future and lets its waiters re-execute. (R245) -/
  | pagerDoorbellRetry (part slot : Nat) (fut : BitVec 10)
  /-- PAGER_DOORBELL_REFUSE: A refuse answer frees a future and faults its waiters with PROT cause 5. (R245) -/
  | pagerDoorbellRefuse (part slot : Nat) (fut : BitVec 10)
  /-- DEBUG_KILL: A DBGCMD KILL ends a named warp or every warp of a group. (R405) -/
  | debugKill (part : Nat) (cmd : BitVec 64)
  /-- PARTQ_WRITE: A PARTQ write sets the partition quire masks or is refused. (R391) -/
  | partqWrite (v : BitVec 64)
  /-- MBCFG_WRITE: A mailbox configuration write opens, closes or unconfigures a mailbox. (R343) -/
  | mbcfgWrite (mbox : Nat) (v : BitVec 32)
  /-- ACCESS_TABLE_WRITE: Writing the upper half of an access-table entry makes it take effect. (R392) -/
  | accessTableWrite (target entry : Nat) (v : BitVec 128)
  /-- START: The first START write latches FOFFER AND FENABLE into FLATCH. (R455) -/
  | start (v : BitVec 32)
  /-- KERNEL_COMMIT: A CFG write with V = 1 commits a kernel-table entry after checks. (R421) -/
  | kernelCommit (part kid : Nat) (cfg : BitVec 32)
  /-- KERNEL_WITHDRAW: A CFG write with V = 0 withdraws a kernel-table entry. (R421) -/
  | kernelWithdraw (part kid : Nat) (cfg : BitVec 32)
  /-- QUEUE_ENABLE: A submission-queue CFG write that sets EN clears STAT and aligns RPTR with WPTR. (R424) -/
  | queueEnable (part slot queue : Nat) (cfg : BitVec 32)
  /-- QUEUE_DISABLE: A CFG write that clears EN stops the headbox reading the queue. (R424) -/
  | queueDisable (part slot queue : Nat) (cfg : BitVec 32)
  /-- WPTR: A WPTR doorbell write makes new packets available to the headbox. (R424) -/
  | wptr (part slot queue : Nat) (v : BitVec 32)
  /-- SMPCFG: A sampler configuration write takes effect at the next sample clock. (R448) -/
  | smpcfg (part : Nat) (v : BitVec 32)
  /-- SAMPLER_COUNTER_CLEAR: A write of 0 clears SDROP or SIDLE; other values are discarded. (R448) -/
  | samplerCounterClear (part : Nat) (idle : Bool) (v : BitVec 32)
  /-- FIRMWARE_STAGE: The driver stages a new firmware image into the inactive slot. (R458) -/
  | firmwareStage (image : FirmwareImage)
  /-- SECURITY_VERSION_RAISE: The driver raises the fused security version after a successful start. (R458) -/
  | securityVersionRaise (v : Nat)
  /-- GET_MEASUREMENTS: An SPDM GET_MEASUREMENTS request returns signed firmware measurements. (R457) -/
  | getMeasurements
  /-- REGISTER_WRITE: A write to a window register without its own row stores the value or is discarded and counted. (R395) -/
  | registerWrite (bar offset size : Nat) (v : BitVec 64)
  /-- SAMPLE_TICK: At a sample clock each core samples its next live fragment and writes or drops a record. (R449) -/
  | sampleTick (core : Nat)
  /-- SENSOR_READ: Firmware reads quire sensors, derives weights and lowers clocks over limits. (R459) -/
  | sensorRead (reading : SensorReading)
  /-- CLOCK_RAISE: After readings stay below limits for 1 ms the clock rises one step. (R459) -/
  | clockRaise (quire : Nat)
  /-- PATROL_SCRUB: The scrubber reads device memory daily and L2 hourly, correcting errors. (R26) -/
  | patrolScrub (die : Nat) (found : ScrubFinding)
  /-- ECC_CORRECTABLE: A correctable error is corrected before use and counted. (R25) -/
  | eccCorrectable (die cls : Nat)
  /-- ECC_UNCORRECTABLE: An uncorrectable error refetches clean data or ends the owning context with MCHK. (R28) -/
  | eccUncorrectable (die cls : Nat) (site : EccSite)
  /-- RESET: Reset trains link 0, verifies firmware, zeroes storage and posts the feature offer. (R454) -/
  | reset
  /-- INSTRUCTION_FETCH: A fragment fetches its next word, which may fault on fetch (PROT cause 0, 2 or 4) or wait on a pager future for a non-resident code page. (R49) -/
  | instructionFetch
  /-- LINE_REQUEST_COMPLETE: A load, store or atomic sent to a home slice on the device performs there and returns its data or acknowledgement to the issuer. (R255) -/
  | lineRequestComplete (core warp frag : Nat)
  /-- PREEMPTION_WITHDRAW: The driver withdraws a standing pre-emption request for a group. (R380) -/
  | preemptionWithdraw (group : Nat)
  deriving DecidableEq, Repr

end Sys2Proof
end

