-- ==== Sys2Proof/WellFormed.lean ====
section
/-! DEFINITION. Which instructions have an encoding that the device accepts: the operand limits of R41, R43, R44,
R46, R56 and of each instruction's entry, as far as the word alone decides them. -/

namespace Sys2Proof

/-- The legal amounts of an HPERM pattern (R60). -/
def permLegal (pattern : BitVec 3) (amount : BitVec 5) : Bool :=
  match pattern.toNat with
  | 0 => amount == 0#5
  | 1 => true
  | 2 => true
  | 3 => true
  | 4 => BitVec.ule 1#5 amount && amount.ule 5#5
  | 5 => amount == 0#5
  | _ => false

/-- The word of `i` breaks no limit that the word alone decides. An event has no word and no limit. -/
def Instr.wf : Instr → Bool
  | .sadd _ _ b i => (i == 0#1 || b == 0#6)
  | .saddc _ _ b i _ => (i == 0#1 || b == 0#6)
  | .ssub _ _ b i => (i == 0#1 || b == 0#6)
  | .ssubb _ _ b i _ => (i == 0#1 || b == 0#6)
  | .smul _ _ b i => (i == 0#1 || b == 0#6)
  | .smulhi _ _ b i => (i == 0#1 || b == 0#6)
  | .smulhu _ _ b i => (i == 0#1 || b == 0#6)
  | .smad _ _ b i => (i == 0#1 || b == 0#6)
  | .sdiv _ _ b i => (i == 0#1 || b == 0#6)
  | .sdivu _ _ b i => (i == 0#1 || b == 0#6)
  | .srem _ _ b i => (i == 0#1 || b == 0#6)
  | .sremu _ _ b i => (i == 0#1 || b == 0#6)
  | .sand _ _ b i => (i == 0#1 || b == 0#6)
  | .sor _ _ b i => (i == 0#1 || b == 0#6)
  | .sxor _ _ b i => (i == 0#1 || b == 0#6)
  | .sandn _ _ b i => (i == 0#1 || b == 0#6)
  | .sshl _ _ b i => (i == 0#1 || b == 0#6)
  | .sshr _ _ b i => (i == 0#1 || b == 0#6)
  | .ssra _ _ b i => (i == 0#1 || b == 0#6)
  | .srol _ _ b i => (i == 0#1 || b == 0#6)
  | .smin _ _ b i => (i == 0#1 || b == 0#6)
  | .smax _ _ b i => (i == 0#1 || b == 0#6)
  | .sminu _ _ b i => (i == 0#1 || b == 0#6)
  | .smaxu _ _ b i => (i == 0#1 || b == 0#6)
  | .scmp _ c _ b i => (i == 0#1 || b == 0#6) && c.ule 9#4
  | .ssel _ _ b i _ => (i == 0#1 || b == 0#6)
  | .smov _ _ => true
  | .smovi _ _ => true
  | .smovhi _ _ => true
  | .sclz _ _ => true
  | .spopc _ _ => true
  | .sbfe _ _ b i => (i == 0#1 || b == 0#6)
  | .sbfi _ _ b i => (i == 0#1 || b == 0#6)
  | .sadd64 d a b i => (i == 0#1 || b == 0#6) && d.getLsbD 0 == false && a.getLsbD 0 == false && (i == 1#1 || b.getLsbD 0 == false)
  | .ssub64 d a b i => (i == 0#1 || b == 0#6) && d.getLsbD 0 == false && a.getLsbD 0 == false && (i == 1#1 || b.getLsbD 0 == false)
  | .sshl64 d a b i => (i == 0#1 || b == 0#6) && d.getLsbD 0 == false && a.getLsbD 0 == false
  | .sshr64 d a b i => (i == 0#1 || b == 0#6) && d.getLsbD 0 == false && a.getLsbD 0 == false
  | .sld d _ _ z => z.ule 5#3 && (z != 5#3 || d.getLsbD 0 == false)
  | .sst s _ _ z => z.ule 5#3 && (z != 5#3 || s.getLsbD 0 == false)
  | .satom s _ _ z _ => (z == 4#3 || z == 5#3) && (z != 5#3 || s.getLsbD 0 == false)
  | .scas s _ _ z => ((z == 4#3 && s.getLsbD 0 == false) || (z == 5#3 && s.extractLsb' 0 2 == 0#2))
  | .sget _ n => n.ule 19#16
  | .ssetx _ n => (n == 16#16 || n == 17#16)
  | .dload _ _ _ => true
  | .dmake s _ => s.extractLsb' 0 2 == 0#2
  | .dset s _ o => o.ule 6#3 && (o != 0#3 || s.getLsbD 0 == false)
  | .dget s _ => s.extractLsb' 0 2 == 0#2
  | .pgreq s _ _ => s.getLsbD 0 == false
  | .fence => true
  | .sldk _ n => n.extractLsb' 0 2 == 0#2
  | .bra _ => true
  | .brac _ _ _ => true
  | .brak _ _ _ => true
  | .braka _ _ _ => true
  | .call _ => true
  | .calli _ _ => true
  | .ret => true
  | .jmpi s _ => s.getLsbD 0 == false
  | .cvset _ => true
  | .cvwait => true
  | .exit => true
  | .nop => true
  | .yield => true
  | .loop _ _ => true
  | .vadd _ _ b i => (i == 0#1 || b == 0#7)
  | .vavg _ _ b i => (i == 0#1 || b == 0#7)
  | .vsub _ _ b i => (i == 0#1 || b == 0#7)
  | .vmul _ _ b i => (i == 0#1 || b == 0#7)
  | .vmulhi _ _ b i => (i == 0#1 || b == 0#7)
  | .vmulhu _ _ b i => (i == 0#1 || b == 0#7)
  | .vmad _ _ b i => (i == 0#1 || b == 0#7)
  | .vand _ _ b i => (i == 0#1 || b == 0#7)
  | .vor _ _ b i => (i == 0#1 || b == 0#7)
  | .vxor _ _ b i => (i == 0#1 || b == 0#7)
  | .vandn _ _ b i => (i == 0#1 || b == 0#7)
  | .vshl _ _ b i => (i == 0#1 || b == 0#7)
  | .vshr _ _ b i => (i == 0#1 || b == 0#7)
  | .vsra _ _ b i => (i == 0#1 || b == 0#7)
  | .vmin _ _ b i => (i == 0#1 || b == 0#7)
  | .vmax _ _ b i => (i == 0#1 || b == 0#7)
  | .vminu _ _ b i => (i == 0#1 || b == 0#7)
  | .vmaxu _ _ b i => (i == 0#1 || b == 0#7)
  | .vabsd _ _ b i => (i == 0#1 || b == 0#7)
  | .vsad _ _ b i => (i == 0#1 || b == 0#7)
  | .vcmp _ c _ b i => (i == 0#1 || b == 0#7) && c.ule 9#4
  | .vsel _ _ b i => (i == 0#1 || b == 0#7)
  | .vmov _ _ => true
  | .vmovi _ _ => true
  | .vmovs _ _ => true
  | .vclz _ _ => true
  | .vpopc _ _ => true
  | .vbfe _ _ b i => (i == 0#1 || b == 0#7)
  | .vbfi _ _ b i => (i == 0#1 || b == 0#7)
  | .vadd64 d a b i => (i == 0#1 || b == 0#7) && d.getLsbD 0 == false && a.getLsbD 0 == false && (i == 1#1 || b.getLsbD 0 == false)
  | .vsub64 d a b i => (i == 0#1 || b == 0#7) && d.getLsbD 0 == false && a.getLsbD 0 == false && (i == 1#1 || b.getLsbD 0 == false)
  | .vidx _ _ => true
  | .vfadd p d a b i => (i == 0#1 || b == 0#7) && (p != 1#2 || (d.getLsbD 0 == false && a.getLsbD 0 == false && (i == 1#1 || b.getLsbD 0 == false)))
  | .vfsub p d a b i => (i == 0#1 || b == 0#7) && (p != 1#2 || (d.getLsbD 0 == false && a.getLsbD 0 == false && (i == 1#1 || b.getLsbD 0 == false)))
  | .vfmul p d a b i => (i == 0#1 || b == 0#7) && (p != 1#2 || (d.getLsbD 0 == false && a.getLsbD 0 == false && (i == 1#1 || b.getLsbD 0 == false)))
  | .vfma p d a b i => (i == 0#1 || b == 0#7) && (p != 1#2 || (d.getLsbD 0 == false && a.getLsbD 0 == false && (i == 1#1 || b.getLsbD 0 == false)))
  | .vfmin p d a b i => (i == 0#1 || b == 0#7) && (p != 1#2 || (d.getLsbD 0 == false && a.getLsbD 0 == false && (i == 1#1 || b.getLsbD 0 == false)))
  | .vfmax p d a b i => (i == 0#1 || b == 0#7) && (p != 1#2 || (d.getLsbD 0 == false && a.getLsbD 0 == false && (i == 1#1 || b.getLsbD 0 == false)))
  | .vfcmp p _ c a b i => (i == 0#1 || b == 0#7) && (p != 1#2 || (a.getLsbD 0 == false && (i == 1#1 || b.getLsbD 0 == false))) && (c.ule 5#4 || c == 10#4 || c == 11#4)
  | .vfrnd p d a => (p != 1#2 || (d.getLsbD 0 == false && a.getLsbD 0 == false))
  | .vfcls p d a => (p != 1#2 || (d.getLsbD 0 == false && a.getLsbD 0 == false))
  | .vfrcp _ _ => true
  | .vfrsq _ _ => true
  | .vfsqrt p d a => (p != 1#1 || (d.getLsbD 0 == false && a.getLsbD 0 == false))
  | .vfdiv p d a b i => (i == 0#1 || b == 0#7) && (p != 1#1 || (d.getLsbD 0 == false && a.getLsbD 0 == false && (i == 1#1 || b.getLsbD 0 == false)))
  | .vfexp2 _ _ => true
  | .vflog2 _ _ => true
  | .vftrig _ _ t => t.ule 2#7
  | .vld d _ _ z _ => z.ule 6#3 && (z != 5#3 || d.getLsbD 0 == false) && (z != 6#3 || d.extractLsb' 0 2 == 0#2)
  | .vldp d _ _ _ w => (w == 0#1 || d.getLsbD 0 == false)
  | .vst s _ _ z _ => z.ule 6#3 && (z != 5#3 || s.getLsbD 0 == false) && (z != 6#3 || s.extractLsb' 0 2 == 0#2)
  | .vlds d _ z _ => z.ule 6#3 && (z != 5#3 || d.getLsbD 0 == false) && (z != 6#3 || d.extractLsb' 0 2 == 0#2)
  | .vsts s _ z _ => z.ule 6#3 && (z != 5#3 || s.getLsbD 0 == false) && (z != 6#3 || s.extractLsb' 0 2 == 0#2)
  | .vpref _ _ _ => true
  | .vatom f _ _ _ _ => f.ule 14#6
  | .vcas _ _ _ _ => true
  | .vred o _ _ _ => o.ule 14#6
  | .vsatom _ _ _ o => o.ule 14#4
  | .vscas _ _ _ => true
  | .vldl _ _ _ => true
  | .vstul _ _ _ => true
  | .vshfl _ _ b i => (i == 0#1 || b == 0#7)
  | .vperm _ _ _ => true
  | .vmatch _ _ _ => true
  | .vballot _ c _ b i => (i == 0#1 || b == 0#7) && c.ule 9#4
  | .vvote _ c _ b i => (i == 0#1 || b == 0#7) && c.ule 9#4
  | .vredx _ _ o => o.ule 9#7
  | .vscanx _ _ o => (o.extractLsb' 0 4).ule 9#4 && o.extractLsb' 5 2 == 0#2
  | .velect _ => true
  | .kand _ _ _ => true
  | .kor _ _ _ => true
  | .kxor _ _ _ => true
  | .knot _ _ => true
  | .kmov _ _ => true
  | .kcnt _ _ => true
  | .kfirst _ _ => true
  | .ktos _ _ => true
  | .stok _ _ => true
  | .vpackb _ _ p => p.ule 24#7
  | .vpackn _ _ p => p.ule 28#7
  | .vpack6 _ _ p => p.ule 26#7
  | .vunpk6 _ _ p => p.ule 26#7
  | .vcmpr _ _ => true
  | .vxpnd _ _ => true
  | .tmma _ a b c => a.getLsbD 0 == false && b.getLsbD 0 == false && c.extractLsb' 0 2 != 3#2
  | .tmmax _ a b c => a.getLsbD 0 == false && b.getLsbD 0 == false && c.extractLsb' 0 2 != 3#2
  | .tzero _ => true
  | .tfill _ a => a.getLsbD 0 == false
  | .tscale _ a b => a.getLsbD 0 == false && b.getLsbD 0 == false
  | .tsmx _ a b => a.getLsbD 0 == false && b.getLsbD 0 == false
  | .tdrain _ a b => a.getLsbD 0 == false && b.getLsbD 0 == false
  | .tamaxr _ a => a.getLsbD 0 == false
  | .tsider _ a b => a.getLsbD 0 == false && b.getLsbD 0 == false
  | .tsidew _ a b => a.getLsbD 0 == false && b.getLsbD 0 == false
  | .tgang _ a => a.getLsbD 0 == false
  | .tfence => true
  | .twait _ => true
  | .cpy _ c s _ m => c.getLsbD 0 == false && s.getLsbD 0 == false && m != 3#2
  | .cpys _ c s _ m => c.getLsbD 0 == false && s.getLsbD 0 == false && m != 3#2
  | .cpyt n c s _ m => c.extractLsb' 0 2 == 0#2 && s.getLsbD 0 == false && m != 3#2 && n.getLsbD 0 == false
  | .cpym _ c s _ m => c.extractLsb' 0 2 == 0#2 && s.getLsbD 0 == false && m != 3#2
  | .cpyr _ c s _ m => c.extractLsb' 0 2 == 0#2 && s.getLsbD 0 == false && m != 3#2
  | .cpyg _ c s _ m => c.extractLsb' 0 2 == 0#2 && s.getLsbD 0 == false && m != 3#2
  | .cpyp _ c s m => c.getLsbD 0 == false && s.getLsbD 0 == false && m != 3#2
  | .cpyw => true
  | .cpyx c => c.getLsbD 0 == false
  | .qpush _ _ => true
  | .qpop _ s => s.getLsbD 0 == false
  | .qtry _ s => s.getLsbD 0 == false
  | .qrsv _ _ => true
  | .qcmt _ s => s.getLsbD 0 == false
  | .qrel _ _ => true
  | .qlen _ _ => true
  | .mbsend s _ => s.extractLsb' 0 2 == 0#2
  | .mbrecv s _ => s.extractLsb' 0 2 == 0#2
  | .binit _ _ => true
  | .barv _ => true
  | .barw _ s o => (o == 0#1 || s == 0#6)
  | .barx _ _ _ => true
  | .bsync _ => true
  | .bphase _ s => s.getLsbD 0 == false
  | .ggrow _ c r n => r != 3#2 && (if c == 0#1 then n != 0#8 && n.ule 128#8 else n == 0#8)
  | .gleave => true
  | .ginfo _ e => e.ule 4#3
  | .klaunch s _ => s.extractLsb' 0 2 == 0#2
  | .sigadd s _ => s.extractLsb' 0 2 == 0#2
  | .sigwait s _ => s.extractLsb' 0 2 == 0#2
  | .rgclm _ n => n != 0#5 && n.ule 16#5
  | .rggiv _ n => n != 0#5 && n.ule 16#5
  | .rdef _ _ => true
  | .rtag _ _ => true
  | .rseal _ => true
  | .rdrop _ => true
  | .rfree _ => true
  | .rgqry _ => true
  | .fmtset _ _ => true
  | .fmtget _ _ => true
  | .fmtchk _ _ => true
  | .vcvt _ _ _ _ => true
  | .vcvto _ _ _ _ => true
  | .vcvts _ _ _ _ => true
  | .trap _ => true
  | .assert _ _ => true
  | .clkr s _ => s.getLsbD 0 == false
  | .featr _ _ => true
  | .sleep _ => true
  | .csrd _ r => (r.ule 0x0C#8 || (BitVec.ule 0x10#8 r && r.ule 0x1D#8))
  | .cswr _ r => (r.ule 0x0C#8 || (BitVec.ule 0x10#8 r && r.ule 0x1D#8))
  | .sampm _ => true
  | .bkpt _ => true
  | .hsch _ _ _ _ _ _ _ _ _ _ => true
  | .himm _ => true
  | .himmx _ => true
  | .hmod s _ r _ _ _ _ _ _ _ _ _ => s.ule 4#3 && r.ule 5#3
  | .hpred _ _ => true
  | .hperm p a q b s => permLegal p a && permLegal q b && (s == 0#6 || p == 5#3 || q == 5#3)
  | .unassignedEncoding _ => true
  | .registerArbiter _ => true
  | .fragmentPromotion _ _ => true
  | .sleepExpire _ _ => true
  | .formatUpdateComplete _ _ _ => true
  | .tileOpComplete _ => true
  | .copyOwnershipGrant _ => true
  | .copyStart _ => true
  | .copyComplete _ _ => true
  | .storeBufferTimeout _ => true
  | .promotionDrainRequest _ => true
  | .promotionDrainReply _ => true
  | .flowMessageArrival _ => true
  | .flowAcknowledgement _ => true
  | .peerRefusal _ => true
  | .permitReturn _ _ => true
  | .permitAudit _ _ _ _ _ => true
  | .linkError _ => true
  | .linkTrainingDone _ _ => true
  | .linkTrainingFail _ => true
  | .linkEnable _ => true
  | .linkDisable _ => true
  | .remoteWaitThreshold _ _ => true
  | .hostMemAccess _ _ _ => true
  | .backInvalidateResponse _ => true
  | .messageReceivable _ => true
  | .placementAttempt _ => true
  | .eviction _ => true
  | .phaseRecordComplete _ => true
  | .groupRestore _ => true
  | .attachServed _ _ => true
  | .groupRetire _ => true
  | .preemptLate _ => true
  | .hung _ => true
  | .evthAfterEviction _ => true
  | .sigwaitPoll _ _ => true
  | .packetRead _ _ _ => true
  | .dependencePoll _ _ _ => true
  | .packetBarrier _ _ _ => true
  | .launch _ _ _ => true
  | .signal _ _ _ => true
  | .shootdown _ _ _ => true
  | .shootdownComplete _ _ _ => true
  | .gridComplete _ => true
  | .heldRecordRetry _ _ => true
  | .create _ _ _ => true
  | .save _ _ => true
  | .saveComplete _ _ => true
  | .resume _ _ => true
  | .destroy _ _ => true
  | .destroyComplete _ _ => true
  | .faultAnswerResume _ _ _ => true
  | .faultAnswerSkip _ _ _ => true
  | .faultAnswerKill _ _ _ => true
  | .pagerDoorbellRetry _ _ _ => true
  | .pagerDoorbellRefuse _ _ _ => true
  | .debugKill _ _ => true
  | .partqWrite _ => true
  | .mbcfgWrite _ _ => true
  | .accessTableWrite _ _ _ => true
  | .start _ => true
  | .kernelCommit _ _ _ => true
  | .kernelWithdraw _ _ _ => true
  | .queueEnable _ _ _ _ => true
  | .queueDisable _ _ _ _ => true
  | .wptr _ _ _ _ => true
  | .smpcfg _ _ => true
  | .samplerCounterClear _ _ _ => true
  | .firmwareStage _ => true
  | .securityVersionRaise _ => true
  | .getMeasurements => true
  | .registerWrite _ _ _ _ => true
  | .sampleTick _ => true
  | .sensorRead _ => true
  | .clockRaise _ => true
  | .patrolScrub _ _ => true
  | .eccCorrectable _ _ => true
  | .eccUncorrectable _ _ _ => true
  | .reset => true
  | .instructionFetch => true
  | .lineRequestComplete _ _ _ => true
  | .preemptionWithdraw _ => true

end Sys2Proof
end

