-- ==== Sys2Proof/Decode.lean ====
section
/-! DEFINITION. Decoding a 32-bit word (R35, R36, R45, R46), total and rejecting by name, and after it the encoder,
written from the same encoding tables. A row of the opcode table that is an event has no word. -/

namespace Sys2Proof

/-- Why a word is not an instruction. Every one of these is `UD` (R38). -/
inductive DecodeError where
  /-- Class 0xF (R45). -/
  | unassignedClass
  /-- A function code, or an operation and precision pair, that its class does not assign (R45, R46). -/
  | unassignedFunction
  /-- A reserved bit is set (R3). -/
  | reservedBit
  /-- An undefined code, or a register operand outside its limits (R41, R43, R44). -/
  | operandLimit
  deriving DecidableEq, Repr

/-- The instruction, when every fixed field of its word holds its value. -/
def guardBits (ok : Bool) (i : Instr) : Except DecodeError Instr :=
  if ok = true then .ok i else .error .reservedBit

/-- Class 0x0 of R45: the instruction of function code `fn`. -/
def decodeClass0 (fn : Nat) (w : BitVec 32) : Except DecodeError Instr :=
  match fn with
  | 0 => guardBits (w.extractLsb' 0 3 == 0x0#3) (.sadd (w.extractLsb' 16 6) (w.extractLsb' 10 6) (w.extractLsb' 4 6) (w.extractLsb' 3 1))
  | 1 => .ok (.saddc (w.extractLsb' 16 6) (w.extractLsb' 10 6) (w.extractLsb' 4 6) (w.extractLsb' 3 1) (w.extractLsb' 0 3))
  | 2 => guardBits (w.extractLsb' 0 3 == 0x0#3) (.ssub (w.extractLsb' 16 6) (w.extractLsb' 10 6) (w.extractLsb' 4 6) (w.extractLsb' 3 1))
  | 3 => .ok (.ssubb (w.extractLsb' 16 6) (w.extractLsb' 10 6) (w.extractLsb' 4 6) (w.extractLsb' 3 1) (w.extractLsb' 0 3))
  | 4 => guardBits (w.extractLsb' 0 3 == 0x0#3) (.smul (w.extractLsb' 16 6) (w.extractLsb' 10 6) (w.extractLsb' 4 6) (w.extractLsb' 3 1))
  | 5 => guardBits (w.extractLsb' 0 3 == 0x0#3) (.smulhi (w.extractLsb' 16 6) (w.extractLsb' 10 6) (w.extractLsb' 4 6) (w.extractLsb' 3 1))
  | 6 => guardBits (w.extractLsb' 0 3 == 0x0#3) (.smulhu (w.extractLsb' 16 6) (w.extractLsb' 10 6) (w.extractLsb' 4 6) (w.extractLsb' 3 1))
  | 7 => guardBits (w.extractLsb' 0 3 == 0x0#3) (.smad (w.extractLsb' 16 6) (w.extractLsb' 10 6) (w.extractLsb' 4 6) (w.extractLsb' 3 1))
  | 8 => guardBits (w.extractLsb' 0 3 == 0x0#3) (.sdiv (w.extractLsb' 16 6) (w.extractLsb' 10 6) (w.extractLsb' 4 6) (w.extractLsb' 3 1))
  | 9 => guardBits (w.extractLsb' 0 3 == 0x0#3) (.sdivu (w.extractLsb' 16 6) (w.extractLsb' 10 6) (w.extractLsb' 4 6) (w.extractLsb' 3 1))
  | 10 => guardBits (w.extractLsb' 0 3 == 0x0#3) (.srem (w.extractLsb' 16 6) (w.extractLsb' 10 6) (w.extractLsb' 4 6) (w.extractLsb' 3 1))
  | 11 => guardBits (w.extractLsb' 0 3 == 0x0#3) (.sremu (w.extractLsb' 16 6) (w.extractLsb' 10 6) (w.extractLsb' 4 6) (w.extractLsb' 3 1))
  | 12 => guardBits (w.extractLsb' 0 3 == 0x0#3) (.sand (w.extractLsb' 16 6) (w.extractLsb' 10 6) (w.extractLsb' 4 6) (w.extractLsb' 3 1))
  | 13 => guardBits (w.extractLsb' 0 3 == 0x0#3) (.sor (w.extractLsb' 16 6) (w.extractLsb' 10 6) (w.extractLsb' 4 6) (w.extractLsb' 3 1))
  | 14 => guardBits (w.extractLsb' 0 3 == 0x0#3) (.sxor (w.extractLsb' 16 6) (w.extractLsb' 10 6) (w.extractLsb' 4 6) (w.extractLsb' 3 1))
  | 15 => guardBits (w.extractLsb' 0 3 == 0x0#3) (.sandn (w.extractLsb' 16 6) (w.extractLsb' 10 6) (w.extractLsb' 4 6) (w.extractLsb' 3 1))
  | 16 => guardBits (w.extractLsb' 0 3 == 0x0#3) (.sshl (w.extractLsb' 16 6) (w.extractLsb' 10 6) (w.extractLsb' 4 6) (w.extractLsb' 3 1))
  | 17 => guardBits (w.extractLsb' 0 3 == 0x0#3) (.sshr (w.extractLsb' 16 6) (w.extractLsb' 10 6) (w.extractLsb' 4 6) (w.extractLsb' 3 1))
  | 18 => guardBits (w.extractLsb' 0 3 == 0x0#3) (.ssra (w.extractLsb' 16 6) (w.extractLsb' 10 6) (w.extractLsb' 4 6) (w.extractLsb' 3 1))
  | 19 => guardBits (w.extractLsb' 0 3 == 0x0#3) (.srol (w.extractLsb' 16 6) (w.extractLsb' 10 6) (w.extractLsb' 4 6) (w.extractLsb' 3 1))
  | 20 => guardBits (w.extractLsb' 0 3 == 0x0#3) (.smin (w.extractLsb' 16 6) (w.extractLsb' 10 6) (w.extractLsb' 4 6) (w.extractLsb' 3 1))
  | 21 => guardBits (w.extractLsb' 0 3 == 0x0#3) (.smax (w.extractLsb' 16 6) (w.extractLsb' 10 6) (w.extractLsb' 4 6) (w.extractLsb' 3 1))
  | 22 => guardBits (w.extractLsb' 0 3 == 0x0#3) (.sminu (w.extractLsb' 16 6) (w.extractLsb' 10 6) (w.extractLsb' 4 6) (w.extractLsb' 3 1))
  | 23 => guardBits (w.extractLsb' 0 3 == 0x0#3) (.smaxu (w.extractLsb' 16 6) (w.extractLsb' 10 6) (w.extractLsb' 4 6) (w.extractLsb' 3 1))
  | 24 => guardBits (w.extractLsb' 0 2 == 0x0#2) (.scmp (w.extractLsb' 19 3) (w.extractLsb' 15 4) (w.extractLsb' 9 6) (w.extractLsb' 3 6) (w.extractLsb' 2 1))
  | 25 => .ok (.ssel (w.extractLsb' 16 6) (w.extractLsb' 10 6) (w.extractLsb' 4 6) (w.extractLsb' 3 1) (w.extractLsb' 0 3))
  | 26 => guardBits (w.extractLsb' 0 10 == 0x0#10) (.smov (w.extractLsb' 16 6) (w.extractLsb' 10 6))
  | 27 => .ok (.smovi (w.extractLsb' 16 6) (w.extractLsb' 0 16))
  | 28 => .ok (.smovhi (w.extractLsb' 16 6) (w.extractLsb' 0 16))
  | 29 => guardBits (w.extractLsb' 0 10 == 0x0#10) (.sclz (w.extractLsb' 16 6) (w.extractLsb' 10 6))
  | 30 => guardBits (w.extractLsb' 0 10 == 0x0#10) (.spopc (w.extractLsb' 16 6) (w.extractLsb' 10 6))
  | 31 => guardBits (w.extractLsb' 0 3 == 0x0#3) (.sbfe (w.extractLsb' 16 6) (w.extractLsb' 10 6) (w.extractLsb' 4 6) (w.extractLsb' 3 1))
  | 32 => guardBits (w.extractLsb' 0 3 == 0x0#3) (.sbfi (w.extractLsb' 16 6) (w.extractLsb' 10 6) (w.extractLsb' 4 6) (w.extractLsb' 3 1))
  | 33 => guardBits (w.extractLsb' 0 3 == 0x0#3) (.sadd64 (w.extractLsb' 16 6) (w.extractLsb' 10 6) (w.extractLsb' 4 6) (w.extractLsb' 3 1))
  | 34 => guardBits (w.extractLsb' 0 3 == 0x0#3) (.ssub64 (w.extractLsb' 16 6) (w.extractLsb' 10 6) (w.extractLsb' 4 6) (w.extractLsb' 3 1))
  | 35 => guardBits (w.extractLsb' 0 3 == 0x0#3) (.sshl64 (w.extractLsb' 16 6) (w.extractLsb' 10 6) (w.extractLsb' 4 6) (w.extractLsb' 3 1))
  | 36 => guardBits (w.extractLsb' 0 3 == 0x0#3) (.sshr64 (w.extractLsb' 16 6) (w.extractLsb' 10 6) (w.extractLsb' 4 6) (w.extractLsb' 3 1))
  | _ => .error .unassignedFunction

/-- Class 0x1 of R45: the instruction of function code `fn`. -/
def decodeClass1 (fn : Nat) (w : BitVec 32) : Except DecodeError Instr :=
  match fn with
  | 0 => guardBits (w.extractLsb' 0 3 == 0x0#3) (.sld (w.extractLsb' 16 6) (w.extractLsb' 10 6) (w.extractLsb' 6 4) (w.extractLsb' 3 3))
  | 1 => guardBits (w.extractLsb' 0 3 == 0x0#3) (.sst (w.extractLsb' 16 6) (w.extractLsb' 10 6) (w.extractLsb' 6 4) (w.extractLsb' 3 3))
  | 2 => .ok (.satom (w.extractLsb' 16 6) (w.extractLsb' 10 6) (w.extractLsb' 6 4) (w.extractLsb' 3 3) (w.extractLsb' 0 3))
  | 3 => guardBits (w.extractLsb' 0 3 == 0x0#3) (.scas (w.extractLsb' 16 6) (w.extractLsb' 10 6) (w.extractLsb' 6 4) (w.extractLsb' 3 3))
  | 4 => .ok (.sget (w.extractLsb' 16 6) (w.extractLsb' 0 16))
  | 5 => .ok (.ssetx (w.extractLsb' 16 6) (w.extractLsb' 0 16))
  | 6 => guardBits (w.extractLsb' 0 6 == 0x0#6 && w.extractLsb' 20 2 == 0x0#2) (.dload (w.extractLsb' 16 4) (w.extractLsb' 10 6) (w.extractLsb' 6 4))
  | 7 => guardBits (w.extractLsb' 0 6 == 0x0#6 && w.extractLsb' 10 6 == 0x0#6) (.dmake (w.extractLsb' 16 6) (w.extractLsb' 6 4))
  | 8 => guardBits (w.extractLsb' 3 3 == 0x0#3 && w.extractLsb' 10 6 == 0x0#6) (.dset (w.extractLsb' 16 6) (w.extractLsb' 6 4) (w.extractLsb' 0 3))
  | 9 => guardBits (w.extractLsb' 0 6 == 0x0#6 && w.extractLsb' 10 6 == 0x0#6) (.dget (w.extractLsb' 16 6) (w.extractLsb' 6 4))
  | 10 => guardBits (w.extractLsb' 2 14 == 0x0#14) (.pgreq (w.extractLsb' 16 6) (w.extractLsb' 1 1) (w.extractLsb' 0 1))
  | 11 => guardBits (w.extractLsb' 0 22 == 0x0#22) (.fence)
  | 12 => .ok (.sldk (w.extractLsb' 16 6) (w.extractLsb' 0 16))
  | _ => .error .unassignedFunction

/-- Class 0x2 of R45: the instruction of function code `fn`. -/
def decodeClass2 (fn : Nat) (w : BitVec 32) : Except DecodeError Instr :=
  match fn with
  | 0 => .ok (.bra (w.extractLsb' 0 22))
  | 1 => .ok (.brac (w.extractLsb' 19 3) (w.extractLsb' 18 1) (w.extractLsb' 0 18))
  | 2 => .ok (.brak (w.extractLsb' 19 3) (w.extractLsb' 18 1) (w.extractLsb' 0 18))
  | 3 => .ok (.braka (w.extractLsb' 19 3) (w.extractLsb' 18 1) (w.extractLsb' 0 18))
  | 4 => .ok (.call (w.extractLsb' 0 22))
  | 5 => .ok (.calli (w.extractLsb' 16 6) (w.extractLsb' 0 16))
  | 6 => guardBits (w.extractLsb' 0 22 == 0x0#22) (.ret)
  | 7 => .ok (.jmpi (w.extractLsb' 16 6) (w.extractLsb' 0 16))
  | 8 => .ok (.cvset (w.extractLsb' 0 22))
  | 9 => guardBits (w.extractLsb' 0 22 == 0x0#22) (.cvwait)
  | 10 => guardBits (w.extractLsb' 0 22 == 0x0#22) (.exit)
  | 11 => guardBits (w.extractLsb' 0 22 == 0x0#22) (.nop)
  | 12 => guardBits (w.extractLsb' 0 22 == 0x0#22) (.yield)
  | 13 => .ok (.loop (w.extractLsb' 16 6) (w.extractLsb' 0 16))
  | _ => .error .unassignedFunction

/-- Class 0x3 of R45: the instruction of function code `fn`. -/
def decodeClass3 (fn : Nat) (w : BitVec 32) : Except DecodeError Instr :=
  match fn with
  | 0 => .ok (.vadd (w.extractLsb' 15 7) (w.extractLsb' 8 7) (w.extractLsb' 1 7) (w.extractLsb' 0 1))
  | 1 => .ok (.vavg (w.extractLsb' 15 7) (w.extractLsb' 8 7) (w.extractLsb' 1 7) (w.extractLsb' 0 1))
  | 2 => .ok (.vsub (w.extractLsb' 15 7) (w.extractLsb' 8 7) (w.extractLsb' 1 7) (w.extractLsb' 0 1))
  | 3 => .ok (.vmul (w.extractLsb' 15 7) (w.extractLsb' 8 7) (w.extractLsb' 1 7) (w.extractLsb' 0 1))
  | 4 => .ok (.vmulhi (w.extractLsb' 15 7) (w.extractLsb' 8 7) (w.extractLsb' 1 7) (w.extractLsb' 0 1))
  | 5 => .ok (.vmulhu (w.extractLsb' 15 7) (w.extractLsb' 8 7) (w.extractLsb' 1 7) (w.extractLsb' 0 1))
  | 6 => .ok (.vmad (w.extractLsb' 15 7) (w.extractLsb' 8 7) (w.extractLsb' 1 7) (w.extractLsb' 0 1))
  | 7 => .ok (.vand (w.extractLsb' 15 7) (w.extractLsb' 8 7) (w.extractLsb' 1 7) (w.extractLsb' 0 1))
  | 8 => .ok (.vor (w.extractLsb' 15 7) (w.extractLsb' 8 7) (w.extractLsb' 1 7) (w.extractLsb' 0 1))
  | 9 => .ok (.vxor (w.extractLsb' 15 7) (w.extractLsb' 8 7) (w.extractLsb' 1 7) (w.extractLsb' 0 1))
  | 10 => .ok (.vandn (w.extractLsb' 15 7) (w.extractLsb' 8 7) (w.extractLsb' 1 7) (w.extractLsb' 0 1))
  | 11 => .ok (.vshl (w.extractLsb' 15 7) (w.extractLsb' 8 7) (w.extractLsb' 1 7) (w.extractLsb' 0 1))
  | 12 => .ok (.vshr (w.extractLsb' 15 7) (w.extractLsb' 8 7) (w.extractLsb' 1 7) (w.extractLsb' 0 1))
  | 13 => .ok (.vsra (w.extractLsb' 15 7) (w.extractLsb' 8 7) (w.extractLsb' 1 7) (w.extractLsb' 0 1))
  | 14 => .ok (.vmin (w.extractLsb' 15 7) (w.extractLsb' 8 7) (w.extractLsb' 1 7) (w.extractLsb' 0 1))
  | 15 => .ok (.vmax (w.extractLsb' 15 7) (w.extractLsb' 8 7) (w.extractLsb' 1 7) (w.extractLsb' 0 1))
  | 16 => .ok (.vminu (w.extractLsb' 15 7) (w.extractLsb' 8 7) (w.extractLsb' 1 7) (w.extractLsb' 0 1))
  | 17 => .ok (.vmaxu (w.extractLsb' 15 7) (w.extractLsb' 8 7) (w.extractLsb' 1 7) (w.extractLsb' 0 1))
  | 18 => .ok (.vabsd (w.extractLsb' 15 7) (w.extractLsb' 8 7) (w.extractLsb' 1 7) (w.extractLsb' 0 1))
  | 19 => .ok (.vsad (w.extractLsb' 15 7) (w.extractLsb' 8 7) (w.extractLsb' 1 7) (w.extractLsb' 0 1))
  | 20 => .ok (.vcmp (w.extractLsb' 19 3) (w.extractLsb' 15 4) (w.extractLsb' 8 7) (w.extractLsb' 1 7) (w.extractLsb' 0 1))
  | 21 => .ok (.vsel (w.extractLsb' 15 7) (w.extractLsb' 8 7) (w.extractLsb' 1 7) (w.extractLsb' 0 1))
  | 22 => guardBits (w.extractLsb' 0 8 == 0x0#8) (.vmov (w.extractLsb' 15 7) (w.extractLsb' 8 7))
  | 23 => .ok (.vmovi (w.extractLsb' 15 7) (w.extractLsb' 0 15))
  | 24 => guardBits (w.extractLsb' 0 8 == 0x0#8 && w.extractLsb' 14 1 == 0x0#1) (.vmovs (w.extractLsb' 15 7) (w.extractLsb' 8 6))
  | 25 => guardBits (w.extractLsb' 0 8 == 0x0#8) (.vclz (w.extractLsb' 15 7) (w.extractLsb' 8 7))
  | 26 => guardBits (w.extractLsb' 0 8 == 0x0#8) (.vpopc (w.extractLsb' 15 7) (w.extractLsb' 8 7))
  | 27 => .ok (.vbfe (w.extractLsb' 15 7) (w.extractLsb' 8 7) (w.extractLsb' 1 7) (w.extractLsb' 0 1))
  | 28 => .ok (.vbfi (w.extractLsb' 15 7) (w.extractLsb' 8 7) (w.extractLsb' 1 7) (w.extractLsb' 0 1))
  | 29 => .ok (.vadd64 (w.extractLsb' 15 7) (w.extractLsb' 8 7) (w.extractLsb' 1 7) (w.extractLsb' 0 1))
  | 30 => .ok (.vsub64 (w.extractLsb' 15 7) (w.extractLsb' 8 7) (w.extractLsb' 1 7) (w.extractLsb' 0 1))
  | 31 => guardBits (w.extractLsb' 1 14 == 0x0#14) (.vidx (w.extractLsb' 15 7) (w.extractLsb' 0 1))
  | _ => .error .unassignedFunction

/-- Class 0x4 of R45: the instruction of function code `fn`. -/
def decodeClass4 (fn : Nat) (w : BitVec 32) : Except DecodeError Instr :=
  match fn with
  | 0 => .ok (.vfadd (w.extractLsb' 22 2) (w.extractLsb' 15 7) (w.extractLsb' 8 7) (w.extractLsb' 1 7) (w.extractLsb' 0 1))
  | 1 => .ok (.vfadd (w.extractLsb' 22 2) (w.extractLsb' 15 7) (w.extractLsb' 8 7) (w.extractLsb' 1 7) (w.extractLsb' 0 1))
  | 2 => .ok (.vfadd (w.extractLsb' 22 2) (w.extractLsb' 15 7) (w.extractLsb' 8 7) (w.extractLsb' 1 7) (w.extractLsb' 0 1))
  | 3 => .ok (.vfadd (w.extractLsb' 22 2) (w.extractLsb' 15 7) (w.extractLsb' 8 7) (w.extractLsb' 1 7) (w.extractLsb' 0 1))
  | 4 => .ok (.vfsub (w.extractLsb' 22 2) (w.extractLsb' 15 7) (w.extractLsb' 8 7) (w.extractLsb' 1 7) (w.extractLsb' 0 1))
  | 5 => .ok (.vfsub (w.extractLsb' 22 2) (w.extractLsb' 15 7) (w.extractLsb' 8 7) (w.extractLsb' 1 7) (w.extractLsb' 0 1))
  | 6 => .ok (.vfsub (w.extractLsb' 22 2) (w.extractLsb' 15 7) (w.extractLsb' 8 7) (w.extractLsb' 1 7) (w.extractLsb' 0 1))
  | 7 => .ok (.vfsub (w.extractLsb' 22 2) (w.extractLsb' 15 7) (w.extractLsb' 8 7) (w.extractLsb' 1 7) (w.extractLsb' 0 1))
  | 8 => .ok (.vfmul (w.extractLsb' 22 2) (w.extractLsb' 15 7) (w.extractLsb' 8 7) (w.extractLsb' 1 7) (w.extractLsb' 0 1))
  | 9 => .ok (.vfmul (w.extractLsb' 22 2) (w.extractLsb' 15 7) (w.extractLsb' 8 7) (w.extractLsb' 1 7) (w.extractLsb' 0 1))
  | 10 => .ok (.vfmul (w.extractLsb' 22 2) (w.extractLsb' 15 7) (w.extractLsb' 8 7) (w.extractLsb' 1 7) (w.extractLsb' 0 1))
  | 11 => .ok (.vfmul (w.extractLsb' 22 2) (w.extractLsb' 15 7) (w.extractLsb' 8 7) (w.extractLsb' 1 7) (w.extractLsb' 0 1))
  | 12 => .ok (.vfma (w.extractLsb' 22 2) (w.extractLsb' 15 7) (w.extractLsb' 8 7) (w.extractLsb' 1 7) (w.extractLsb' 0 1))
  | 13 => .ok (.vfma (w.extractLsb' 22 2) (w.extractLsb' 15 7) (w.extractLsb' 8 7) (w.extractLsb' 1 7) (w.extractLsb' 0 1))
  | 14 => .ok (.vfma (w.extractLsb' 22 2) (w.extractLsb' 15 7) (w.extractLsb' 8 7) (w.extractLsb' 1 7) (w.extractLsb' 0 1))
  | 15 => .ok (.vfma (w.extractLsb' 22 2) (w.extractLsb' 15 7) (w.extractLsb' 8 7) (w.extractLsb' 1 7) (w.extractLsb' 0 1))
  | 16 => .ok (.vfmin (w.extractLsb' 22 2) (w.extractLsb' 15 7) (w.extractLsb' 8 7) (w.extractLsb' 1 7) (w.extractLsb' 0 1))
  | 17 => .ok (.vfmin (w.extractLsb' 22 2) (w.extractLsb' 15 7) (w.extractLsb' 8 7) (w.extractLsb' 1 7) (w.extractLsb' 0 1))
  | 18 => .ok (.vfmin (w.extractLsb' 22 2) (w.extractLsb' 15 7) (w.extractLsb' 8 7) (w.extractLsb' 1 7) (w.extractLsb' 0 1))
  | 19 => .ok (.vfmin (w.extractLsb' 22 2) (w.extractLsb' 15 7) (w.extractLsb' 8 7) (w.extractLsb' 1 7) (w.extractLsb' 0 1))
  | 20 => .ok (.vfmax (w.extractLsb' 22 2) (w.extractLsb' 15 7) (w.extractLsb' 8 7) (w.extractLsb' 1 7) (w.extractLsb' 0 1))
  | 21 => .ok (.vfmax (w.extractLsb' 22 2) (w.extractLsb' 15 7) (w.extractLsb' 8 7) (w.extractLsb' 1 7) (w.extractLsb' 0 1))
  | 22 => .ok (.vfmax (w.extractLsb' 22 2) (w.extractLsb' 15 7) (w.extractLsb' 8 7) (w.extractLsb' 1 7) (w.extractLsb' 0 1))
  | 23 => .ok (.vfmax (w.extractLsb' 22 2) (w.extractLsb' 15 7) (w.extractLsb' 8 7) (w.extractLsb' 1 7) (w.extractLsb' 0 1))
  | 24 => .ok (.vfcmp (w.extractLsb' 22 2) (w.extractLsb' 19 3) (w.extractLsb' 15 4) (w.extractLsb' 8 7) (w.extractLsb' 1 7) (w.extractLsb' 0 1))
  | 25 => .ok (.vfcmp (w.extractLsb' 22 2) (w.extractLsb' 19 3) (w.extractLsb' 15 4) (w.extractLsb' 8 7) (w.extractLsb' 1 7) (w.extractLsb' 0 1))
  | 26 => .ok (.vfcmp (w.extractLsb' 22 2) (w.extractLsb' 19 3) (w.extractLsb' 15 4) (w.extractLsb' 8 7) (w.extractLsb' 1 7) (w.extractLsb' 0 1))
  | 27 => .ok (.vfcmp (w.extractLsb' 22 2) (w.extractLsb' 19 3) (w.extractLsb' 15 4) (w.extractLsb' 8 7) (w.extractLsb' 1 7) (w.extractLsb' 0 1))
  | 28 => guardBits (w.extractLsb' 0 8 == 0x0#8) (.vfrnd (w.extractLsb' 22 2) (w.extractLsb' 15 7) (w.extractLsb' 8 7))
  | 29 => guardBits (w.extractLsb' 0 8 == 0x0#8) (.vfrnd (w.extractLsb' 22 2) (w.extractLsb' 15 7) (w.extractLsb' 8 7))
  | 30 => guardBits (w.extractLsb' 0 8 == 0x0#8) (.vfrnd (w.extractLsb' 22 2) (w.extractLsb' 15 7) (w.extractLsb' 8 7))
  | 31 => guardBits (w.extractLsb' 0 8 == 0x0#8) (.vfrnd (w.extractLsb' 22 2) (w.extractLsb' 15 7) (w.extractLsb' 8 7))
  | 32 => guardBits (w.extractLsb' 0 8 == 0x0#8) (.vfcls (w.extractLsb' 22 2) (w.extractLsb' 15 7) (w.extractLsb' 8 7))
  | 33 => guardBits (w.extractLsb' 0 8 == 0x0#8) (.vfcls (w.extractLsb' 22 2) (w.extractLsb' 15 7) (w.extractLsb' 8 7))
  | 34 => guardBits (w.extractLsb' 0 8 == 0x0#8) (.vfcls (w.extractLsb' 22 2) (w.extractLsb' 15 7) (w.extractLsb' 8 7))
  | 35 => guardBits (w.extractLsb' 0 8 == 0x0#8) (.vfcls (w.extractLsb' 22 2) (w.extractLsb' 15 7) (w.extractLsb' 8 7))
  | 36 => guardBits (w.extractLsb' 0 8 == 0x0#8) (.vfrcp (w.extractLsb' 15 7) (w.extractLsb' 8 7))
  | 40 => guardBits (w.extractLsb' 0 8 == 0x0#8) (.vfrsq (w.extractLsb' 15 7) (w.extractLsb' 8 7))
  | 44 => guardBits (w.extractLsb' 0 8 == 0x0#8) (.vfsqrt (w.extractLsb' 22 1) (w.extractLsb' 15 7) (w.extractLsb' 8 7))
  | 45 => guardBits (w.extractLsb' 0 8 == 0x0#8) (.vfsqrt (w.extractLsb' 22 1) (w.extractLsb' 15 7) (w.extractLsb' 8 7))
  | 48 => .ok (.vfdiv (w.extractLsb' 22 1) (w.extractLsb' 15 7) (w.extractLsb' 8 7) (w.extractLsb' 1 7) (w.extractLsb' 0 1))
  | 49 => .ok (.vfdiv (w.extractLsb' 22 1) (w.extractLsb' 15 7) (w.extractLsb' 8 7) (w.extractLsb' 1 7) (w.extractLsb' 0 1))
  | 52 => guardBits (w.extractLsb' 0 8 == 0x0#8) (.vfexp2 (w.extractLsb' 15 7) (w.extractLsb' 8 7))
  | 56 => guardBits (w.extractLsb' 0 8 == 0x0#8) (.vflog2 (w.extractLsb' 15 7) (w.extractLsb' 8 7))
  | 60 => guardBits (w.extractLsb' 0 1 == 0x0#1) (.vftrig (w.extractLsb' 15 7) (w.extractLsb' 8 7) (w.extractLsb' 1 7))
  | _ => .error .unassignedFunction

/-- Class 0x5 of R45: the instruction of function code `fn`. -/
def decodeClass5 (fn : Nat) (w : BitVec 32) : Except DecodeError Instr :=
  match fn with
  | 0 => .ok (.vld (w.extractLsb' 15 7) (w.extractLsb' 8 7) (w.extractLsb' 4 4) (w.extractLsb' 1 3) (w.extractLsb' 0 1))
  | 1 => .ok (.vldp (w.extractLsb' 15 7) (w.extractLsb' 8 7) (w.extractLsb' 4 4) (w.extractLsb' 1 3) (w.extractLsb' 0 1))
  | 2 => .ok (.vst (w.extractLsb' 15 7) (w.extractLsb' 8 7) (w.extractLsb' 4 4) (w.extractLsb' 1 3) (w.extractLsb' 0 1))
  | 3 => .ok (.vlds (w.extractLsb' 15 7) (w.extractLsb' 8 7) (w.extractLsb' 5 3) (w.extractLsb' 0 5))
  | 4 => .ok (.vsts (w.extractLsb' 15 7) (w.extractLsb' 8 7) (w.extractLsb' 5 3) (w.extractLsb' 0 5))
  | 5 => guardBits (w.extractLsb' 1 3 == 0x0#3 && w.extractLsb' 15 7 == 0x0#7) (.vpref (w.extractLsb' 8 7) (w.extractLsb' 4 4) (w.extractLsb' 0 1))
  | _ => .error .unassignedFunction

/-- Class 0x6 of R45: the instruction of function code `fn`. -/
def decodeClass6 (fn : Nat) (w : BitVec 32) : Except DecodeError Instr :=
  match fn with
  | 0 => .ok (.vatom (w.extractLsb' 22 6) (w.extractLsb' 16 6) (w.extractLsb' 10 6) (w.extractLsb' 4 6) (w.extractLsb' 0 4))
  | 1 => .ok (.vatom (w.extractLsb' 22 6) (w.extractLsb' 16 6) (w.extractLsb' 10 6) (w.extractLsb' 4 6) (w.extractLsb' 0 4))
  | 2 => .ok (.vatom (w.extractLsb' 22 6) (w.extractLsb' 16 6) (w.extractLsb' 10 6) (w.extractLsb' 4 6) (w.extractLsb' 0 4))
  | 3 => .ok (.vatom (w.extractLsb' 22 6) (w.extractLsb' 16 6) (w.extractLsb' 10 6) (w.extractLsb' 4 6) (w.extractLsb' 0 4))
  | 4 => .ok (.vatom (w.extractLsb' 22 6) (w.extractLsb' 16 6) (w.extractLsb' 10 6) (w.extractLsb' 4 6) (w.extractLsb' 0 4))
  | 5 => .ok (.vatom (w.extractLsb' 22 6) (w.extractLsb' 16 6) (w.extractLsb' 10 6) (w.extractLsb' 4 6) (w.extractLsb' 0 4))
  | 6 => .ok (.vatom (w.extractLsb' 22 6) (w.extractLsb' 16 6) (w.extractLsb' 10 6) (w.extractLsb' 4 6) (w.extractLsb' 0 4))
  | 7 => .ok (.vatom (w.extractLsb' 22 6) (w.extractLsb' 16 6) (w.extractLsb' 10 6) (w.extractLsb' 4 6) (w.extractLsb' 0 4))
  | 8 => .ok (.vatom (w.extractLsb' 22 6) (w.extractLsb' 16 6) (w.extractLsb' 10 6) (w.extractLsb' 4 6) (w.extractLsb' 0 4))
  | 9 => .ok (.vatom (w.extractLsb' 22 6) (w.extractLsb' 16 6) (w.extractLsb' 10 6) (w.extractLsb' 4 6) (w.extractLsb' 0 4))
  | 10 => .ok (.vatom (w.extractLsb' 22 6) (w.extractLsb' 16 6) (w.extractLsb' 10 6) (w.extractLsb' 4 6) (w.extractLsb' 0 4))
  | 11 => .ok (.vatom (w.extractLsb' 22 6) (w.extractLsb' 16 6) (w.extractLsb' 10 6) (w.extractLsb' 4 6) (w.extractLsb' 0 4))
  | 12 => .ok (.vatom (w.extractLsb' 22 6) (w.extractLsb' 16 6) (w.extractLsb' 10 6) (w.extractLsb' 4 6) (w.extractLsb' 0 4))
  | 13 => .ok (.vatom (w.extractLsb' 22 6) (w.extractLsb' 16 6) (w.extractLsb' 10 6) (w.extractLsb' 4 6) (w.extractLsb' 0 4))
  | 14 => .ok (.vatom (w.extractLsb' 22 6) (w.extractLsb' 16 6) (w.extractLsb' 10 6) (w.extractLsb' 4 6) (w.extractLsb' 0 4))
  | 15 => .ok (.vcas (w.extractLsb' 16 6) (w.extractLsb' 10 6) (w.extractLsb' 4 6) (w.extractLsb' 0 4))
  | 16 => .ok (.vred (w.extractLsb' 16 6) (w.extractLsb' 10 6) (w.extractLsb' 4 6) (w.extractLsb' 0 4))
  | 17 => .ok (.vsatom (w.extractLsb' 16 6) (w.extractLsb' 10 6) (w.extractLsb' 4 6) (w.extractLsb' 0 4))
  | 18 => guardBits (w.extractLsb' 0 4 == 0x0#4) (.vscas (w.extractLsb' 16 6) (w.extractLsb' 10 6) (w.extractLsb' 4 6))
  | 19 => guardBits (w.extractLsb' 5 3 == 0x4#3) (.vldl (w.extractLsb' 15 7) (w.extractLsb' 8 7) (w.extractLsb' 0 5))
  | 20 => guardBits (w.extractLsb' 5 3 == 0x4#3) (.vstul (w.extractLsb' 15 7) (w.extractLsb' 8 7) (w.extractLsb' 0 5))
  | _ => .error .unassignedFunction

/-- Class 0x7 of R45: the instruction of function code `fn`. -/
def decodeClass7 (fn : Nat) (w : BitVec 32) : Except DecodeError Instr :=
  match fn with
  | 0 => .ok (.vshfl (w.extractLsb' 15 7) (w.extractLsb' 8 7) (w.extractLsb' 1 7) (w.extractLsb' 0 1))
  | 1 => guardBits (w.extractLsb' 0 1 == 0x0#1) (.vperm (w.extractLsb' 15 7) (w.extractLsb' 8 7) (w.extractLsb' 1 7))
  | 2 => guardBits (w.extractLsb' 0 1 == 0x0#1 && w.extractLsb' 15 4 == 0x0#4) (.vmatch (w.extractLsb' 19 3) (w.extractLsb' 8 7) (w.extractLsb' 1 7))
  | 3 => .ok (.vballot (w.extractLsb' 19 3) (w.extractLsb' 15 4) (w.extractLsb' 8 7) (w.extractLsb' 1 7) (w.extractLsb' 0 1))
  | 4 => .ok (.vvote (w.extractLsb' 19 3) (w.extractLsb' 15 4) (w.extractLsb' 8 7) (w.extractLsb' 1 7) (w.extractLsb' 0 1))
  | 5 => guardBits (w.extractLsb' 0 1 == 0x0#1) (.vredx (w.extractLsb' 15 7) (w.extractLsb' 8 7) (w.extractLsb' 1 7))
  | 6 => guardBits (w.extractLsb' 0 1 == 0x0#1) (.vscanx (w.extractLsb' 15 7) (w.extractLsb' 8 7) (w.extractLsb' 1 7))
  | 7 => guardBits (w.extractLsb' 0 19 == 0x0#19) (.velect (w.extractLsb' 19 3))
  | 8 => guardBits (w.extractLsb' 0 13 == 0x0#13) (.kand (w.extractLsb' 19 3) (w.extractLsb' 16 3) (w.extractLsb' 13 3))
  | 9 => guardBits (w.extractLsb' 0 13 == 0x0#13) (.kor (w.extractLsb' 19 3) (w.extractLsb' 16 3) (w.extractLsb' 13 3))
  | 10 => guardBits (w.extractLsb' 0 13 == 0x0#13) (.kxor (w.extractLsb' 19 3) (w.extractLsb' 16 3) (w.extractLsb' 13 3))
  | 11 => guardBits (w.extractLsb' 0 16 == 0x0#16) (.knot (w.extractLsb' 19 3) (w.extractLsb' 16 3))
  | 12 => guardBits (w.extractLsb' 0 16 == 0x0#16) (.kmov (w.extractLsb' 19 3) (w.extractLsb' 16 3))
  | 13 => guardBits (w.extractLsb' 3 13 == 0x0#13) (.kcnt (w.extractLsb' 16 6) (w.extractLsb' 0 3))
  | 14 => guardBits (w.extractLsb' 3 13 == 0x0#13) (.kfirst (w.extractLsb' 16 6) (w.extractLsb' 0 3))
  | 15 => guardBits (w.extractLsb' 3 13 == 0x0#13) (.ktos (w.extractLsb' 16 6) (w.extractLsb' 0 3))
  | 16 => guardBits (w.extractLsb' 3 13 == 0x0#13) (.stok (w.extractLsb' 16 6) (w.extractLsb' 0 3))
  | 17 => guardBits (w.extractLsb' 0 1 == 0x0#1) (.vpackb (w.extractLsb' 15 7) (w.extractLsb' 8 7) (w.extractLsb' 1 7))
  | 18 => guardBits (w.extractLsb' 0 1 == 0x0#1) (.vpackn (w.extractLsb' 15 7) (w.extractLsb' 8 7) (w.extractLsb' 1 7))
  | 19 => guardBits (w.extractLsb' 0 1 == 0x0#1) (.vpack6 (w.extractLsb' 15 7) (w.extractLsb' 8 7) (w.extractLsb' 1 7))
  | 20 => guardBits (w.extractLsb' 0 1 == 0x0#1) (.vunpk6 (w.extractLsb' 15 7) (w.extractLsb' 8 7) (w.extractLsb' 1 7))
  | 21 => guardBits (w.extractLsb' 0 8 == 0x0#8) (.vcmpr (w.extractLsb' 15 7) (w.extractLsb' 8 7))
  | 22 => guardBits (w.extractLsb' 0 8 == 0x0#8) (.vxpnd (w.extractLsb' 15 7) (w.extractLsb' 8 7))
  | _ => .error .unassignedFunction

/-- Class 0x8 of R45: the instruction of function code `fn`. -/
def decodeClass8 (fn : Nat) (w : BitVec 32) : Except DecodeError Instr :=
  match fn with
  | 0 => guardBits (w.extractLsb' 3 3 == 0x0#3) (.tmma (w.extractLsb' 18 4) (w.extractLsb' 12 6) (w.extractLsb' 6 6) (w.extractLsb' 0 3))
  | 1 => guardBits (w.extractLsb' 3 3 == 0x0#3) (.tmmax (w.extractLsb' 18 4) (w.extractLsb' 12 6) (w.extractLsb' 6 6) (w.extractLsb' 0 3))
  | 2 => guardBits (w.extractLsb' 0 18 == 0x0#18) (.tzero (w.extractLsb' 18 4))
  | 3 => guardBits (w.extractLsb' 0 12 == 0x0#12) (.tfill (w.extractLsb' 18 4) (w.extractLsb' 12 6))
  | 4 => guardBits (w.extractLsb' 0 6 == 0x0#6) (.tscale (w.extractLsb' 18 4) (w.extractLsb' 12 6) (w.extractLsb' 6 6))
  | 5 => guardBits (w.extractLsb' 0 6 == 0x0#6) (.tsmx (w.extractLsb' 18 4) (w.extractLsb' 12 6) (w.extractLsb' 6 6))
  | 6 => guardBits (w.extractLsb' 0 6 == 0x0#6) (.tdrain (w.extractLsb' 18 4) (w.extractLsb' 12 6) (w.extractLsb' 6 6))
  | 7 => guardBits (w.extractLsb' 0 12 == 0x0#12) (.tamaxr (w.extractLsb' 18 4) (w.extractLsb' 12 6))
  | 8 => guardBits (w.extractLsb' 0 6 == 0x0#6) (.tsider (w.extractLsb' 18 4) (w.extractLsb' 12 6) (w.extractLsb' 6 6))
  | 9 => guardBits (w.extractLsb' 0 6 == 0x0#6) (.tsidew (w.extractLsb' 18 4) (w.extractLsb' 12 6) (w.extractLsb' 6 6))
  | 10 => guardBits (w.extractLsb' 0 12 == 0x0#12) (.tgang (w.extractLsb' 18 4) (w.extractLsb' 12 6))
  | 11 => guardBits (w.extractLsb' 0 22 == 0x0#22) (.tfence)
  | 12 => guardBits (w.extractLsb' 0 18 == 0x0#18) (.twait (w.extractLsb' 18 4))
  | _ => .error .unassignedFunction

/-- Class 0x9 of R45: the instruction of function code `fn`. -/
def decodeClass9 (fn : Nat) (w : BitVec 32) : Except DecodeError Instr :=
  match fn with
  | 0 => .ok (.cpy (w.extractLsb' 18 4) (w.extractLsb' 12 6) (w.extractLsb' 6 6) (w.extractLsb' 2 4) (w.extractLsb' 0 2))
  | 1 => .ok (.cpys (w.extractLsb' 18 4) (w.extractLsb' 12 6) (w.extractLsb' 6 6) (w.extractLsb' 2 4) (w.extractLsb' 0 2))
  | 2 => .ok (.cpyt (w.extractLsb' 18 4) (w.extractLsb' 12 6) (w.extractLsb' 6 6) (w.extractLsb' 2 4) (w.extractLsb' 0 2))
  | 3 => .ok (.cpym (w.extractLsb' 18 4) (w.extractLsb' 12 6) (w.extractLsb' 6 6) (w.extractLsb' 2 4) (w.extractLsb' 0 2))
  | 4 => .ok (.cpyr (w.extractLsb' 18 4) (w.extractLsb' 12 6) (w.extractLsb' 6 6) (w.extractLsb' 2 4) (w.extractLsb' 0 2))
  | 5 => .ok (.cpyg (w.extractLsb' 18 4) (w.extractLsb' 12 6) (w.extractLsb' 6 6) (w.extractLsb' 2 4) (w.extractLsb' 0 2))
  | 6 => guardBits (w.extractLsb' 2 4 == 0x0#4) (.cpyp (w.extractLsb' 18 4) (w.extractLsb' 12 6) (w.extractLsb' 6 6) (w.extractLsb' 0 2))
  | 7 => guardBits (w.extractLsb' 0 22 == 0x0#22) (.cpyw)
  | 8 => guardBits (w.extractLsb' 0 12 == 0x0#12 && w.extractLsb' 18 4 == 0x0#4) (.cpyx (w.extractLsb' 12 6))
  | _ => .error .unassignedFunction

/-- Class 0xA of R45: the instruction of function code `fn`. -/
def decodeClass10 (fn : Nat) (w : BitVec 32) : Except DecodeError Instr :=
  match fn with
  | 0 => guardBits (w.extractLsb' 0 12 == 0x0#12) (.qpush (w.extractLsb' 18 4) (w.extractLsb' 12 6))
  | 1 => guardBits (w.extractLsb' 0 12 == 0x0#12) (.qpop (w.extractLsb' 18 4) (w.extractLsb' 12 6))
  | 2 => guardBits (w.extractLsb' 0 12 == 0x0#12) (.qtry (w.extractLsb' 18 4) (w.extractLsb' 12 6))
  | 3 => guardBits (w.extractLsb' 0 12 == 0x0#12) (.qrsv (w.extractLsb' 18 4) (w.extractLsb' 12 6))
  | 4 => guardBits (w.extractLsb' 0 12 == 0x0#12) (.qcmt (w.extractLsb' 18 4) (w.extractLsb' 12 6))
  | 5 => guardBits (w.extractLsb' 0 12 == 0x0#12) (.qrel (w.extractLsb' 18 4) (w.extractLsb' 12 6))
  | 6 => guardBits (w.extractLsb' 0 12 == 0x0#12) (.qlen (w.extractLsb' 18 4) (w.extractLsb' 12 6))
  | 7 => guardBits (w.extractLsb' 8 8 == 0x0#8) (.mbsend (w.extractLsb' 16 6) (w.extractLsb' 0 8))
  | 8 => guardBits (w.extractLsb' 8 8 == 0x0#8) (.mbrecv (w.extractLsb' 16 6) (w.extractLsb' 0 8))
  | 9 => guardBits (w.extractLsb' 0 12 == 0x0#12) (.binit (w.extractLsb' 18 4) (w.extractLsb' 12 6))
  | 10 => guardBits (w.extractLsb' 0 18 == 0x0#18) (.barv (w.extractLsb' 18 4))
  | 11 => guardBits (w.extractLsb' 1 11 == 0x0#11) (.barw (w.extractLsb' 18 4) (w.extractLsb' 12 6) (w.extractLsb' 0 1))
  | 12 => guardBits (w.extractLsb' 1 11 == 0x0#11) (.barx (w.extractLsb' 18 4) (w.extractLsb' 12 6) (w.extractLsb' 0 1))
  | 13 => guardBits (w.extractLsb' 0 18 == 0x0#18) (.bsync (w.extractLsb' 18 4))
  | 14 => guardBits (w.extractLsb' 0 12 == 0x0#12) (.bphase (w.extractLsb' 18 4) (w.extractLsb' 12 6))
  | 15 => guardBits (w.extractLsb' 11 5 == 0x0#5) (.ggrow (w.extractLsb' 16 6) (w.extractLsb' 10 1) (w.extractLsb' 8 2) (w.extractLsb' 0 8))
  | 16 => guardBits (w.extractLsb' 0 22 == 0x0#22) (.gleave)
  | 17 => guardBits (w.extractLsb' 3 13 == 0x0#13) (.ginfo (w.extractLsb' 16 6) (w.extractLsb' 0 3))
  | 18 => guardBits (w.extractLsb' 6 10 == 0x0#10) (.klaunch (w.extractLsb' 16 6) (w.extractLsb' 0 6))
  | 19 => guardBits (w.extractLsb' 1 15 == 0x0#15) (.sigadd (w.extractLsb' 16 6) (w.extractLsb' 0 1))
  | 20 => guardBits (w.extractLsb' 1 15 == 0x0#15) (.sigwait (w.extractLsb' 16 6) (w.extractLsb' 0 1))
  | _ => .error .unassignedFunction

/-- Class 0xB of R45: the instruction of function code `fn`. -/
def decodeClass11 (fn : Nat) (w : BitVec 32) : Except DecodeError Instr :=
  match fn with
  | 0 => guardBits (w.extractLsb' 5 11 == 0x0#11) (.rgclm (w.extractLsb' 16 6) (w.extractLsb' 0 5))
  | 1 => guardBits (w.extractLsb' 5 11 == 0x0#11) (.rggiv (w.extractLsb' 16 6) (w.extractLsb' 0 5))
  | 2 => guardBits (w.extractLsb' 6 16 == 0x0#16) (.rdef (w.extractLsb' 4 2) (w.extractLsb' 0 4))
  | 3 => guardBits (w.extractLsb' 4 11 == 0x0#11) (.rtag (w.extractLsb' 15 7) (w.extractLsb' 0 4))
  | 4 => guardBits (w.extractLsb' 0 15 == 0x0#15) (.rseal (w.extractLsb' 15 7))
  | 5 => guardBits (w.extractLsb' 0 15 == 0x0#15) (.rdrop (w.extractLsb' 15 7))
  | 6 => guardBits (w.extractLsb' 4 18 == 0x0#18) (.rfree (w.extractLsb' 0 4))
  | 7 => guardBits (w.extractLsb' 0 16 == 0x0#16) (.rgqry (w.extractLsb' 16 6))
  | _ => .error .unassignedFunction

/-- Class 0xC of R45: the instruction of function code `fn`. -/
def decodeClass12 (fn : Nat) (w : BitVec 32) : Except DecodeError Instr :=
  match fn with
  | 0 => guardBits (w.extractLsb' 0 12 == 0x0#12) (.fmtset (w.extractLsb' 18 4) (w.extractLsb' 12 6))
  | 1 => guardBits (w.extractLsb' 0 12 == 0x0#12) (.fmtget (w.extractLsb' 18 4) (w.extractLsb' 12 6))
  | 2 => guardBits (w.extractLsb' 0 12 == 0x0#12) (.fmtchk (w.extractLsb' 18 4) (w.extractLsb' 12 6))
  | 3 => .ok (.vcvt (w.extractLsb' 15 7) (w.extractLsb' 8 7) (w.extractLsb' 4 4) (w.extractLsb' 0 4))
  | 4 => .ok (.vcvto (w.extractLsb' 15 7) (w.extractLsb' 8 7) (w.extractLsb' 4 4) (w.extractLsb' 0 4))
  | 5 => .ok (.vcvts (w.extractLsb' 15 7) (w.extractLsb' 8 7) (w.extractLsb' 4 4) (w.extractLsb' 0 4))
  | _ => .error .unassignedFunction

/-- Class 0xD of R45: the instruction of function code `fn`. -/
def decodeClass13 (fn : Nat) (w : BitVec 32) : Except DecodeError Instr :=
  match fn with
  | 0 => guardBits (w.extractLsb' 8 14 == 0x0#14) (.trap (w.extractLsb' 0 8))
  | 1 => guardBits (w.extractLsb' 8 8 == 0x0#8) (.assert (w.extractLsb' 16 6) (w.extractLsb' 0 8))
  | 2 => guardBits (w.extractLsb' 1 15 == 0x0#15) (.clkr (w.extractLsb' 16 6) (w.extractLsb' 0 1))
  | 3 => guardBits (w.extractLsb' 2 14 == 0x0#14) (.featr (w.extractLsb' 16 6) (w.extractLsb' 0 2))
  | 4 => guardBits (w.extractLsb' 16 6 == 0x0#6) (.sleep (w.extractLsb' 0 16))
  | 5 => guardBits (w.extractLsb' 8 8 == 0x0#8) (.csrd (w.extractLsb' 16 6) (w.extractLsb' 0 8))
  | 6 => guardBits (w.extractLsb' 8 8 == 0x0#8) (.cswr (w.extractLsb' 16 6) (w.extractLsb' 0 8))
  | 7 => guardBits (w.extractLsb' 16 6 == 0x0#6) (.sampm (w.extractLsb' 0 16))
  | 8 => guardBits (w.extractLsb' 8 14 == 0x0#14) (.bkpt (w.extractLsb' 0 8))
  | _ => .error .unassignedFunction

/-- Class 0xE of R45: the instruction of function code `fn`. -/
def decodeClass14 (fn : Nat) (w : BitVec 32) : Except DecodeError Instr :=
  match fn with
  | 0 => guardBits (w.extractLsb' 0 3 == 0x0#3) (.hsch (w.extractLsb' 18 4) (w.extractLsb' 17 1) (w.extractLsb' 16 1) (w.extractLsb' 12 4) (w.extractLsb' 11 1) (w.extractLsb' 10 1) (w.extractLsb' 6 4) (w.extractLsb' 5 1) (w.extractLsb' 4 1) (w.extractLsb' 3 1))
  | 1 => .ok (.himm (w.extractLsb' 0 22))
  | 2 => guardBits (w.extractLsb' 0 12 == 0x0#12) (.himmx (w.extractLsb' 12 10))
  | 3 => .ok (.hmod (w.extractLsb' 19 3) (w.extractLsb' 17 2) (w.extractLsb' 14 3) (w.extractLsb' 13 1) (w.extractLsb' 11 2) (w.extractLsb' 8 3) (w.extractLsb' 5 3) (w.extractLsb' 4 1) (w.extractLsb' 3 1) (w.extractLsb' 2 1) (w.extractLsb' 1 1) (w.extractLsb' 0 1))
  | 4 => guardBits (w.extractLsb' 0 18 == 0x0#18) (.hpred (w.extractLsb' 19 3) (w.extractLsb' 18 1))
  | 5 => .ok (.hperm (w.extractLsb' 19 3) (w.extractLsb' 14 5) (w.extractLsb' 11 3) (w.extractLsb' 6 5) (w.extractLsb' 0 6))
  | _ => .error .unassignedFunction

/-- The instruction whose fields a word holds, before the operand limits are checked. -/
def decodeFields (w : BitVec 32) : Except DecodeError Instr :=
  let fn := (w.extractLsb' 22 6).toNat
  match (w.extractLsb' 28 4).toNat with
  | 0 => decodeClass0 fn w
  | 1 => decodeClass1 fn w
  | 2 => decodeClass2 fn w
  | 3 => decodeClass3 fn w
  | 4 => decodeClass4 fn w
  | 5 => decodeClass5 fn w
  | 6 => decodeClass6 fn w
  | 7 => decodeClass7 fn w
  | 8 => decodeClass8 fn w
  | 9 => decodeClass9 fn w
  | 10 => decodeClass10 fn w
  | 11 => decodeClass11 fn w
  | 12 => decodeClass12 fn w
  | 13 => decodeClass13 fn w
  | 14 => decodeClass14 fn w
  | _ => .error .unassignedClass

/-- The instruction that a word encodes, or the reason why it is `UD` (R38, R39 check 1 as far as the word alone
decides it). -/
def decode (w : BitVec 32) : Except DecodeError Instr :=
  match decodeFields w with
  | .error e => .error e
  | .ok i => if i.wf then .ok i else .error .operandLimit

/-- The bytes of a word as memory holds them, lowest address first (R2, R35). -/
def wordBytes (w : BitVec 32) : List (BitVec 8) :=
  [w.extractLsb' 0 8, w.extractLsb' 8 8, w.extractLsb' 16 8, w.extractLsb' 24 8]

/-- The word that four bytes, lowest address first, hold (R2, R35). -/
def bytesWord : List (BitVec 8) → BitVec 32
  | [a, b, c, d] => d ++ c ++ b ++ a
  | _ => 0#32

/-- The instruction the decoder reads from the bits of an opcode-table row: one little-endian word (R35). -/
def decodeTableWord (nbits w : Nat) : Option Instr :=
  if nbits ≤ 32 then
    match decode (bytesWord (wordBytes (BitVec.ofNat 32 w))) with
    | .ok i => some i
    | .error _ => none
  else none

/-- The word of an instruction, from the encoding tables of the spec (R40, R45); none for an event. -/
def encode : Instr → Option (BitVec 32)
  | .sadd d a b i => some (0x0#10 ++ d ++ a ++ b ++ i ++ 0x0#3)
  | .saddc d a b i c => some (0x1#10 ++ d ++ a ++ b ++ i ++ c)
  | .ssub d a b i => some (0x2#10 ++ d ++ a ++ b ++ i ++ 0x0#3)
  | .ssubb d a b i c => some (0x3#10 ++ d ++ a ++ b ++ i ++ c)
  | .smul d a b i => some (0x4#10 ++ d ++ a ++ b ++ i ++ 0x0#3)
  | .smulhi d a b i => some (0x5#10 ++ d ++ a ++ b ++ i ++ 0x0#3)
  | .smulhu d a b i => some (0x6#10 ++ d ++ a ++ b ++ i ++ 0x0#3)
  | .smad d a b i => some (0x7#10 ++ d ++ a ++ b ++ i ++ 0x0#3)
  | .sdiv d a b i => some (0x8#10 ++ d ++ a ++ b ++ i ++ 0x0#3)
  | .sdivu d a b i => some (0x9#10 ++ d ++ a ++ b ++ i ++ 0x0#3)
  | .srem d a b i => some (0xA#10 ++ d ++ a ++ b ++ i ++ 0x0#3)
  | .sremu d a b i => some (0xB#10 ++ d ++ a ++ b ++ i ++ 0x0#3)
  | .sand d a b i => some (0xC#10 ++ d ++ a ++ b ++ i ++ 0x0#3)
  | .sor d a b i => some (0xD#10 ++ d ++ a ++ b ++ i ++ 0x0#3)
  | .sxor d a b i => some (0xE#10 ++ d ++ a ++ b ++ i ++ 0x0#3)
  | .sandn d a b i => some (0xF#10 ++ d ++ a ++ b ++ i ++ 0x0#3)
  | .sshl d a b i => some (0x10#10 ++ d ++ a ++ b ++ i ++ 0x0#3)
  | .sshr d a b i => some (0x11#10 ++ d ++ a ++ b ++ i ++ 0x0#3)
  | .ssra d a b i => some (0x12#10 ++ d ++ a ++ b ++ i ++ 0x0#3)
  | .srol d a b i => some (0x13#10 ++ d ++ a ++ b ++ i ++ 0x0#3)
  | .smin d a b i => some (0x14#10 ++ d ++ a ++ b ++ i ++ 0x0#3)
  | .smax d a b i => some (0x15#10 ++ d ++ a ++ b ++ i ++ 0x0#3)
  | .sminu d a b i => some (0x16#10 ++ d ++ a ++ b ++ i ++ 0x0#3)
  | .smaxu d a b i => some (0x17#10 ++ d ++ a ++ b ++ i ++ 0x0#3)
  | .scmp k c a b i => some (0x18#10 ++ k ++ c ++ a ++ b ++ i ++ 0x0#2)
  | .ssel d a b i c => some (0x19#10 ++ d ++ a ++ b ++ i ++ c)
  | .smov d a => some (0x1A#10 ++ d ++ a ++ 0x0#10)
  | .smovi d i => some (0x1B#10 ++ d ++ i)
  | .smovhi d i => some (0x1C#10 ++ d ++ i)
  | .sclz d a => some (0x1D#10 ++ d ++ a ++ 0x0#10)
  | .spopc d a => some (0x1E#10 ++ d ++ a ++ 0x0#10)
  | .sbfe d a b i => some (0x1F#10 ++ d ++ a ++ b ++ i ++ 0x0#3)
  | .sbfi d a b i => some (0x20#10 ++ d ++ a ++ b ++ i ++ 0x0#3)
  | .sadd64 d a b i => some (0x21#10 ++ d ++ a ++ b ++ i ++ 0x0#3)
  | .ssub64 d a b i => some (0x22#10 ++ d ++ a ++ b ++ i ++ 0x0#3)
  | .sshl64 d a b i => some (0x23#10 ++ d ++ a ++ b ++ i ++ 0x0#3)
  | .sshr64 d a b i => some (0x24#10 ++ d ++ a ++ b ++ i ++ 0x0#3)
  | .sld d i n z => some (0x40#10 ++ d ++ i ++ n ++ z ++ 0x0#3)
  | .sst s i n z => some (0x41#10 ++ s ++ i ++ n ++ z ++ 0x0#3)
  | .satom s i n z o => some (0x42#10 ++ s ++ i ++ n ++ z ++ o)
  | .scas s i n z => some (0x43#10 ++ s ++ i ++ n ++ z ++ 0x0#3)
  | .sget d n => some (0x44#10 ++ d ++ n)
  | .ssetx s n => some (0x45#10 ++ s ++ n)
  | .dload m i n => some (0x118#12 ++ m ++ i ++ n ++ 0x0#6)
  | .dmake s n => some (0x47#10 ++ s ++ 0x0#6 ++ n ++ 0x0#6)
  | .dset s n o => some (0x48#10 ++ s ++ 0x0#6 ++ n ++ 0x0#3 ++ o)
  | .dget s n => some (0x49#10 ++ s ++ 0x0#6 ++ n ++ 0x0#6)
  | .pgreq s w t => some (0x4A#10 ++ s ++ 0x0#14 ++ w ++ t)
  | .fence => some (0x12C00000#32)
  | .sldk d n => some (0x4C#10 ++ d ++ n)
  | .bra o => some (0x80#10 ++ o)
  | .brac c s o => some (0x81#10 ++ c ++ s ++ o)
  | .brak k s o => some (0x82#10 ++ k ++ s ++ o)
  | .braka k s o => some (0x83#10 ++ k ++ s ++ o)
  | .call o => some (0x84#10 ++ o)
  | .calli s n => some (0x85#10 ++ s ++ n)
  | .ret => some (0x21800000#32)
  | .jmpi s n => some (0x87#10 ++ s ++ n)
  | .cvset o => some (0x88#10 ++ o)
  | .cvwait => some (0x22400000#32)
  | .exit => some (0x22800000#32)
  | .nop => some (0x22C00000#32)
  | .yield => some (0x23000000#32)
  | .loop s o => some (0x8D#10 ++ s ++ o)
  | .vadd d a b i => some (0xC0#10 ++ d ++ a ++ b ++ i)
  | .vavg d a b i => some (0xC1#10 ++ d ++ a ++ b ++ i)
  | .vsub d a b i => some (0xC2#10 ++ d ++ a ++ b ++ i)
  | .vmul d a b i => some (0xC3#10 ++ d ++ a ++ b ++ i)
  | .vmulhi d a b i => some (0xC4#10 ++ d ++ a ++ b ++ i)
  | .vmulhu d a b i => some (0xC5#10 ++ d ++ a ++ b ++ i)
  | .vmad d a b i => some (0xC6#10 ++ d ++ a ++ b ++ i)
  | .vand d a b i => some (0xC7#10 ++ d ++ a ++ b ++ i)
  | .vor d a b i => some (0xC8#10 ++ d ++ a ++ b ++ i)
  | .vxor d a b i => some (0xC9#10 ++ d ++ a ++ b ++ i)
  | .vandn d a b i => some (0xCA#10 ++ d ++ a ++ b ++ i)
  | .vshl d a b i => some (0xCB#10 ++ d ++ a ++ b ++ i)
  | .vshr d a b i => some (0xCC#10 ++ d ++ a ++ b ++ i)
  | .vsra d a b i => some (0xCD#10 ++ d ++ a ++ b ++ i)
  | .vmin d a b i => some (0xCE#10 ++ d ++ a ++ b ++ i)
  | .vmax d a b i => some (0xCF#10 ++ d ++ a ++ b ++ i)
  | .vminu d a b i => some (0xD0#10 ++ d ++ a ++ b ++ i)
  | .vmaxu d a b i => some (0xD1#10 ++ d ++ a ++ b ++ i)
  | .vabsd d a b i => some (0xD2#10 ++ d ++ a ++ b ++ i)
  | .vsad d a b i => some (0xD3#10 ++ d ++ a ++ b ++ i)
  | .vcmp k c a b i => some (0xD4#10 ++ k ++ c ++ a ++ b ++ i)
  | .vsel d a b i => some (0xD5#10 ++ d ++ a ++ b ++ i)
  | .vmov d a => some (0xD6#10 ++ d ++ a ++ 0x0#8)
  | .vmovi d i => some (0xD7#10 ++ d ++ i)
  | .vmovs d s => some (0xD8#10 ++ d ++ 0x0#1 ++ s ++ 0x0#8)
  | .vclz d a => some (0xD9#10 ++ d ++ a ++ 0x0#8)
  | .vpopc d a => some (0xDA#10 ++ d ++ a ++ 0x0#8)
  | .vbfe d a b i => some (0xDB#10 ++ d ++ a ++ b ++ i)
  | .vbfi d a b i => some (0xDC#10 ++ d ++ a ++ b ++ i)
  | .vadd64 d a b i => some (0xDD#10 ++ d ++ a ++ b ++ i)
  | .vsub64 d a b i => some (0xDE#10 ++ d ++ a ++ b ++ i)
  | .vidx d i => some (0xDF#10 ++ d ++ 0x0#14 ++ i)
  | .vfadd p d a b i => some (0x40#8 ++ p ++ d ++ a ++ b ++ i)
  | .vfsub p d a b i => some (0x41#8 ++ p ++ d ++ a ++ b ++ i)
  | .vfmul p d a b i => some (0x42#8 ++ p ++ d ++ a ++ b ++ i)
  | .vfma p d a b i => some (0x43#8 ++ p ++ d ++ a ++ b ++ i)
  | .vfmin p d a b i => some (0x44#8 ++ p ++ d ++ a ++ b ++ i)
  | .vfmax p d a b i => some (0x45#8 ++ p ++ d ++ a ++ b ++ i)
  | .vfcmp p k c a b i => some (0x46#8 ++ p ++ k ++ c ++ a ++ b ++ i)
  | .vfrnd p d a => some (0x47#8 ++ p ++ d ++ a ++ 0x0#8)
  | .vfcls p d a => some (0x48#8 ++ p ++ d ++ a ++ 0x0#8)
  | .vfrcp d a => some (0x124#10 ++ d ++ a ++ 0x0#8)
  | .vfrsq d a => some (0x128#10 ++ d ++ a ++ 0x0#8)
  | .vfsqrt p d a => some (0x96#9 ++ p ++ d ++ a ++ 0x0#8)
  | .vfdiv p d a b i => some (0x98#9 ++ p ++ d ++ a ++ b ++ i)
  | .vfexp2 d a => some (0x134#10 ++ d ++ a ++ 0x0#8)
  | .vflog2 d a => some (0x138#10 ++ d ++ a ++ 0x0#8)
  | .vftrig d a t => some (0x13C#10 ++ d ++ a ++ t ++ 0x0#1)
  | .vld d i n z t => some (0x140#10 ++ d ++ i ++ n ++ z ++ t)
  | .vldp d i n k w => some (0x141#10 ++ d ++ i ++ n ++ k ++ w)
  | .vst s i n z t => some (0x142#10 ++ s ++ i ++ n ++ z ++ t)
  | .vlds d a z o => some (0x143#10 ++ d ++ a ++ z ++ o)
  | .vsts s a z o => some (0x144#10 ++ s ++ a ++ z ++ o)
  | .vpref i n t => some (0xA280#17 ++ i ++ n ++ 0x0#3 ++ t)
  | .vatom f d i s n => some (0x6#4 ++ f ++ d ++ i ++ s ++ n)
  | .vcas d i s n => some (0x18F#10 ++ d ++ i ++ s ++ n)
  | .vred o i s n => some (0x190#10 ++ o ++ i ++ s ++ n)
  | .vsatom d a s o => some (0x191#10 ++ d ++ a ++ s ++ o)
  | .vscas d a s => some (0x192#10 ++ d ++ a ++ s ++ 0x0#4)
  | .vldl d a o => some (0x193#10 ++ d ++ a ++ 0x4#3 ++ o)
  | .vstul s a o => some (0x194#10 ++ s ++ a ++ 0x4#3 ++ o)
  | .vshfl d a b i => some (0x1C0#10 ++ d ++ a ++ b ++ i)
  | .vperm d a b => some (0x1C1#10 ++ d ++ a ++ b ++ 0x0#1)
  | .vmatch k a m => some (0x1C2#10 ++ k ++ 0x0#4 ++ a ++ m ++ 0x0#1)
  | .vballot k c a b i => some (0x1C3#10 ++ k ++ c ++ a ++ b ++ i)
  | .vvote k c a b i => some (0x1C4#10 ++ k ++ c ++ a ++ b ++ i)
  | .vredx d a o => some (0x1C5#10 ++ d ++ a ++ o ++ 0x0#1)
  | .vscanx d a o => some (0x1C6#10 ++ d ++ a ++ o ++ 0x0#1)
  | .velect k => some (0x1C7#10 ++ k ++ 0x0#19)
  | .kand d a b => some (0x1C8#10 ++ d ++ a ++ b ++ 0x0#13)
  | .kor d a b => some (0x1C9#10 ++ d ++ a ++ b ++ 0x0#13)
  | .kxor d a b => some (0x1CA#10 ++ d ++ a ++ b ++ 0x0#13)
  | .knot d a => some (0x1CB#10 ++ d ++ a ++ 0x0#16)
  | .kmov d a => some (0x1CC#10 ++ d ++ a ++ 0x0#16)
  | .kcnt s k => some (0x1CD#10 ++ s ++ 0x0#13 ++ k)
  | .kfirst s k => some (0x1CE#10 ++ s ++ 0x0#13 ++ k)
  | .ktos s k => some (0x1CF#10 ++ s ++ 0x0#13 ++ k)
  | .stok s k => some (0x1D0#10 ++ s ++ 0x0#13 ++ k)
  | .vpackb d a p => some (0x1D1#10 ++ d ++ a ++ p ++ 0x0#1)
  | .vpackn d a p => some (0x1D2#10 ++ d ++ a ++ p ++ 0x0#1)
  | .vpack6 d a p => some (0x1D3#10 ++ d ++ a ++ p ++ 0x0#1)
  | .vunpk6 d a p => some (0x1D4#10 ++ d ++ a ++ p ++ 0x0#1)
  | .vcmpr d a => some (0x1D5#10 ++ d ++ a ++ 0x0#8)
  | .vxpnd d a => some (0x1D6#10 ++ d ++ a ++ 0x0#8)
  | .tmma t a b c => some (0x200#10 ++ t ++ a ++ b ++ 0x0#3 ++ c)
  | .tmmax t a b c => some (0x201#10 ++ t ++ a ++ b ++ 0x0#3 ++ c)
  | .tzero t => some (0x202#10 ++ t ++ 0x0#18)
  | .tfill t a => some (0x203#10 ++ t ++ a ++ 0x0#12)
  | .tscale t a b => some (0x204#10 ++ t ++ a ++ b ++ 0x0#6)
  | .tsmx t a b => some (0x205#10 ++ t ++ a ++ b ++ 0x0#6)
  | .tdrain t a b => some (0x206#10 ++ t ++ a ++ b ++ 0x0#6)
  | .tamaxr t a => some (0x207#10 ++ t ++ a ++ 0x0#12)
  | .tsider t a b => some (0x208#10 ++ t ++ a ++ b ++ 0x0#6)
  | .tsidew t a b => some (0x209#10 ++ t ++ a ++ b ++ 0x0#6)
  | .tgang t a => some (0x20A#10 ++ t ++ a ++ 0x0#12)
  | .tfence => some (0x82C00000#32)
  | .twait t => some (0x20C#10 ++ t ++ 0x0#18)
  | .cpy n c s b m => some (0x240#10 ++ n ++ c ++ s ++ b ++ m)
  | .cpys n c s b m => some (0x241#10 ++ n ++ c ++ s ++ b ++ m)
  | .cpyt n c s b m => some (0x242#10 ++ n ++ c ++ s ++ b ++ m)
  | .cpym n c s b m => some (0x243#10 ++ n ++ c ++ s ++ b ++ m)
  | .cpyr n c s b m => some (0x244#10 ++ n ++ c ++ s ++ b ++ m)
  | .cpyg n c s b m => some (0x245#10 ++ n ++ c ++ s ++ b ++ m)
  | .cpyp n c s m => some (0x246#10 ++ n ++ c ++ s ++ 0x0#4 ++ m)
  | .cpyw => some (0x91C00000#32)
  | .cpyx c => some (0x2480#14 ++ c ++ 0x0#12)
  | .qpush q s => some (0x280#10 ++ q ++ s ++ 0x0#12)
  | .qpop q s => some (0x281#10 ++ q ++ s ++ 0x0#12)
  | .qtry q s => some (0x282#10 ++ q ++ s ++ 0x0#12)
  | .qrsv q s => some (0x283#10 ++ q ++ s ++ 0x0#12)
  | .qcmt q s => some (0x284#10 ++ q ++ s ++ 0x0#12)
  | .qrel q s => some (0x285#10 ++ q ++ s ++ 0x0#12)
  | .qlen q s => some (0x286#10 ++ q ++ s ++ 0x0#12)
  | .mbsend s m => some (0x287#10 ++ s ++ 0x0#8 ++ m)
  | .mbrecv s m => some (0x288#10 ++ s ++ 0x0#8 ++ m)
  | .binit b s => some (0x289#10 ++ b ++ s ++ 0x0#12)
  | .barv b => some (0x28A#10 ++ b ++ 0x0#18)
  | .barw b s o => some (0x28B#10 ++ b ++ s ++ 0x0#11 ++ o)
  | .barx b s a => some (0x28C#10 ++ b ++ s ++ 0x0#11 ++ a)
  | .bsync b => some (0x28D#10 ++ b ++ 0x0#18)
  | .bphase b s => some (0x28E#10 ++ b ++ s ++ 0x0#12)
  | .ggrow s c r n => some (0x28F#10 ++ s ++ 0x0#5 ++ c ++ r ++ n)
  | .gleave => some (0xA4000000#32)
  | .ginfo s e => some (0x291#10 ++ s ++ 0x0#13 ++ e)
  | .klaunch s q => some (0x292#10 ++ s ++ 0x0#10 ++ q)
  | .sigadd s e => some (0x293#10 ++ s ++ 0x0#15 ++ e)
  | .sigwait s e => some (0x294#10 ++ s ++ 0x0#15 ++ e)
  | .rgclm s n => some (0x2C0#10 ++ s ++ 0x0#11 ++ n)
  | .rggiv s n => some (0x2C1#10 ++ s ++ 0x0#11 ++ n)
  | .rdef c x => some (0x2C20000#26 ++ c ++ x)
  | .rtag d x => some (0x2C3#10 ++ d ++ 0x0#11 ++ x)
  | .rseal d => some (0x2C4#10 ++ d ++ 0x0#15)
  | .rdrop d => some (0x2C5#10 ++ d ++ 0x0#15)
  | .rfree x => some (0xB180000#28 ++ x)
  | .rgqry s => some (0x2C7#10 ++ s ++ 0x0#16)
  | .fmtset f s => some (0x300#10 ++ f ++ s ++ 0x0#12)
  | .fmtget f s => some (0x301#10 ++ f ++ s ++ 0x0#12)
  | .fmtchk f s => some (0x302#10 ++ f ++ s ++ 0x0#12)
  | .vcvt d a g f => some (0x303#10 ++ d ++ a ++ g ++ f)
  | .vcvto d a g f => some (0x304#10 ++ d ++ a ++ g ++ f)
  | .vcvts d a g f => some (0x305#10 ++ d ++ a ++ g ++ f)
  | .trap n => some (0xD00000#24 ++ n)
  | .assert s n => some (0x341#10 ++ s ++ 0x0#8 ++ n)
  | .clkr s e => some (0x342#10 ++ s ++ 0x0#15 ++ e)
  | .featr s n => some (0x343#10 ++ s ++ 0x0#14 ++ n)
  | .sleep n => some (0xD100#16 ++ n)
  | .csrd s r => some (0x345#10 ++ s ++ 0x0#8 ++ r)
  | .cswr s r => some (0x346#10 ++ s ++ 0x0#8 ++ r)
  | .sampm n => some (0xD1C0#16 ++ n)
  | .bkpt n => some (0xD20000#24 ++ n)
  | .hsch a b c d e f g h j y => some (0x380#10 ++ a ++ b ++ c ++ d ++ e ++ f ++ g ++ h ++ j ++ y ++ 0x0#3)
  | .himm i => some (0x381#10 ++ i)
  | .himmx x => some (0x382#10 ++ x ++ 0x0#12)
  | .hmod s o r t w a b n m x y g => some (0x383#10 ++ s ++ o ++ r ++ t ++ w ++ a ++ b ++ n ++ m ++ x ++ y ++ g)
  | .hpred k v => some (0x384#10 ++ k ++ v ++ 0x0#18)
  | .hperm p a q b s => some (0x385#10 ++ p ++ a ++ q ++ b ++ s)
  | .unassignedEncoding _ => none
  | .registerArbiter _ => none
  | .fragmentPromotion _ _ => none
  | .sleepExpire _ _ => none
  | .formatUpdateComplete _ _ _ => none
  | .tileOpComplete _ => none
  | .copyOwnershipGrant _ => none
  | .copyStart _ => none
  | .copyComplete _ _ => none
  | .storeBufferTimeout _ => none
  | .promotionDrainRequest _ => none
  | .promotionDrainReply _ => none
  | .flowMessageArrival _ => none
  | .flowAcknowledgement _ => none
  | .peerRefusal _ => none
  | .permitReturn _ _ => none
  | .permitAudit _ _ _ _ _ => none
  | .linkError _ => none
  | .linkTrainingDone _ _ => none
  | .linkTrainingFail _ => none
  | .linkEnable _ => none
  | .linkDisable _ => none
  | .remoteWaitThreshold _ _ => none
  | .hostMemAccess _ _ _ => none
  | .backInvalidateResponse _ => none
  | .messageReceivable _ => none
  | .placementAttempt _ => none
  | .eviction _ => none
  | .phaseRecordComplete _ => none
  | .groupRestore _ => none
  | .attachServed _ _ => none
  | .groupRetire _ => none
  | .preemptLate _ => none
  | .hung _ => none
  | .evthAfterEviction _ => none
  | .sigwaitPoll _ _ => none
  | .packetRead _ _ _ => none
  | .dependencePoll _ _ _ => none
  | .packetBarrier _ _ _ => none
  | .launch _ _ _ => none
  | .signal _ _ _ => none
  | .shootdown _ _ _ => none
  | .shootdownComplete _ _ _ => none
  | .gridComplete _ => none
  | .heldRecordRetry _ _ => none
  | .create _ _ _ => none
  | .save _ _ => none
  | .saveComplete _ _ => none
  | .resume _ _ => none
  | .destroy _ _ => none
  | .destroyComplete _ _ => none
  | .faultAnswerResume _ _ _ => none
  | .faultAnswerSkip _ _ _ => none
  | .faultAnswerKill _ _ _ => none
  | .pagerDoorbellRetry _ _ _ => none
  | .pagerDoorbellRefuse _ _ _ => none
  | .debugKill _ _ => none
  | .partqWrite _ => none
  | .mbcfgWrite _ _ => none
  | .accessTableWrite _ _ _ => none
  | .start _ => none
  | .kernelCommit _ _ _ => none
  | .kernelWithdraw _ _ _ => none
  | .queueEnable _ _ _ _ => none
  | .queueDisable _ _ _ _ => none
  | .wptr _ _ _ _ => none
  | .smpcfg _ _ => none
  | .samplerCounterClear _ _ _ => none
  | .firmwareStage _ => none
  | .securityVersionRaise _ => none
  | .getMeasurements => none
  | .registerWrite _ _ _ _ => none
  | .sampleTick _ => none
  | .sensorRead _ => none
  | .clockRaise _ => none
  | .patrolScrub _ _ => none
  | .eccCorrectable _ _ => none
  | .eccUncorrectable _ _ _ => none
  | .reset => none
  | .instructionFetch => none
  | .lineRequestComplete _ _ _ => none
  | .preemptionWithdraw _ => none

/-- Whether an instruction is an event that happens of itself: the encoded instructions, the fetch and the unassigned
word belong to a fragment that issues. -/
def Instr.isEvent (i : Instr) : Bool :=
  match i with
  | .unassignedEncoding _ => false
  | .instructionFetch => false
  | i => (encode i).isNone

end Sys2Proof
end

