-- ==== Sys2Proof/Machine/State.lean ====
section
/-! DEFINITION. The state of the device as plain data: everything that the spec gives the machine, and the fields of
the model's own (`agenda`, `cur`, `draws`, `prefer`, `fresh`). `State.reset` is the machine right after the start of R454. -/

namespace Sys2Proof.Machine

/-! ### Stops -/

/-- Why the machine stops with a fault. The device reports its own faults as fault records and goes on (R398), so
this is not one of them. -/
inductive Fault where
  /-- Raised by an access to device memory at a physical address at or above 384 GiB (R14), which only a driver's own
  physical pointer can form: PTROOT, SAVEBASE or SMPBASE. Safe: the spec gives no effect. -/
  | noSuchPhysicalAddress
  deriving DecidableEq, Repr

/-- Why the model gives no next state. -/
inductive Refusal where
  /-- Raised by an arm of `exec` whose instruction has no meaning yet. Safe. -/
  | notModelled (mnemonic : String)
  /-- Raised when `exec` is asked to run a word while no fragment issues (`State.cur` names none). `step` always names
  the issuing fragment first, so no run reaches it. Safe. -/
  | noIssuer
  deriving DecidableEq, Repr

/-! ### Names -/

/-- The scheduling modes of R61. -/
inductive Mode where
  | trusting | checking | interlocked
  deriving DecidableEq, Repr

/-- The roles of R105. -/
abbrev Role := RoleCode

/-- A fragment, by its warp's and its own number in the model. -/
structure FragRef where
  warp : Nat
  frag : Nat
  deriving DecidableEq, Repr

/-- A register that an instruction reads or writes (R62, R109). -/
inductive Reg where
  | s (n : Nat)
  | k (n : Nat)
  | c (n : Nat)
  | d (n : Nat)
  | v (n : Nat)
  deriving DecidableEq, Repr

/-- The memory that a page is homed in (LOC of R237). -/
inductive Home where
  | device | host | peer (n : Nat)
  deriving DecidableEq, Repr

/-! ### Warps -/

/-- One instruction's share of an HSCH coverage (R51). -/
structure Cover where
  stall : Nat
  lastA : Bool
  lastB : Bool
  yield : Bool
  deriving DecidableEq, Repr

/-- An entry of a convergence stack (R164). -/
structure Conv where
  p : Dword
  m : Word
  d : Nat
  deriving DecidableEq, Repr

/-- What a queue waiter does when its slot comes (R340). -/
inductive QueueOp where
  | push (handle : Word)
  | reserve (s : Nat)
  | pop (s : Nat)
  deriving DecidableEq, Repr

/-- A pager future (R244): its number, the 4 KiB range it serves. -/
structure Future where
  n    : Nat
  page : Nat
  deriving DecidableEq, Repr

/-- A page that an access waits for (R224, R244): its future, or none while none is free; what its request record says; and what
the fault of a refusal says: AUX, the address, the lanes, or none for the whole fragment, and the recipe slot. -/
structure Join where
  n     : Option Nat
  page  : Nat
  mig   : Bool
  expl  : Bool
  wr    : Bool
  src   : Nat
  aux   : Word
  addr  : Dword
  lanes : Option Word
  rpl   : Option Nat
  deriving DecidableEq, Repr

/-- Why a fragment does not issue. The first group are the blocking points of R376 and the two kinds of R168, the second the
bounded waits. -/
inductive Wait where
  /-- Free to issue. -/
  | none
  /-- Parked on the fault whose record has this sequence number (R167). -/
  | parked (seq : BitVec 24)
  /-- `BARW` or `BSYNC` on a phase of this parity (R360); `bs`: a `BSYNC` whose arrival is recorded (R363). -/
  | barrier (bn : Nat) (parity : Bool) (own bs : Bool)
  /-- The arrival of a pending member (R356). -/
  | member (bn : Nat)
  /-- A queue wait, ordered by `stamp` (R340). -/
  | queue (qn : Nat) (op : QueueOp) (stamp : Nat)
  /-- The pages that the instruction waits for (R244, R245). -/
  | futures (js : List Join)
  /-- A claim of register steps, ordered by `stamp` (R121): explicit with its destination scalar, or implicit, and then perhaps of
  the replay of a slot (R143), with the vector names that its write needs registers for (R122). -/
  | claim (steps : Nat) (dest : Option Nat) (stamp : Nat) (rpl : Option Nat) (names : List Nat)
  /-- `SIGWAIT` (R434). -/
  | signal (addr val : Dword)
  /-- A remote request outstanding since a tick (R445): its lanes with addresses and keys; `late` once longer than RWTH. -/
  | remote (since : Nat) (atomic late : Bool) (lanes : List (Nat × Nat × Nat))
  /-- Held at a matching convergence entry (R165). -/
  | held
  /-- At a `CVWAIT` without a matching entry while the warp holds a parked fragment (R165). -/
  | behind
  /-- `SLEEP` until a core clock (R410). -/
  | sleep (till : Nat)
  /-- Registers not yet written (R109). -/
  | score
  /-- `TWAIT`, `TGANG`, `TSIDER` or `TAMAXR` (R288, R294, R297, R298): the operations on a tile with a number below `upto`;
  `own`: those of the warp, else those that its core issued; `drains`: drains among them. -/
  | tile (t : Nat) (own drains : Bool) (upto : Nat)
  /-- `CPYW` (R324). -/
  | copies
  /-- A line that a copy owns (R320). -/
  | line (l : Nat)
  /-- A line whose release tag drains first (R268). -/
  | promotion (l : Nat)
  /-- A line the host may hold, snooped (R440). -/
  | snoop (l : Nat)
  /-- Scratchpad locks held elsewhere, by address: the instruction issues again when one of them is free (R233, R234). -/
  | lock (addrs : List Nat)
  /-- A full engine queue (R278) of one of these cores. -/
  | engine (cores : List Nat)
  /-- A full copy unit (R305). -/
  | copyUnit
  /-- `FMTSET` until every replica holds the word of this update (R81), or, when it waits its turn, until that update is over. -/
  | format (update : Nat) (own : Bool)
  /-- An access to bytes that an access of the warp issued earlier is still to perform on (R220, R262). -/
  | access
  /-- A release or fence waiting for the accesses of its core below store number `upto` to perform, or, at system scope, for their
  acknowledgement too (R259, R265, R274). -/
  | acks (system : Bool) (upto : Nat)
  /-- A `FENCE` of core scope waiting for the accesses of its own lanes below store number `upto` to perform (R265). -/
  | stores (lanes : Word) (upto : Nat)
  /-- Walks that read entries of the page table, by their keys, which no path or permit reaches or the host may hold (R436, R440,
  R442). -/
  | walk (keys : List Nat)
  /-- A path and a permit for a message of a class from a die toward a home, by its key, behind the flow's earlier ones (R441, R442,
  R445). -/
  | crossing (die cls key : Nat)
  /-- A `GLEAVE` that waits for the instructions that its warp issued before it (R104, R374). -/
  | leaving
  /-- The wait that the fragment left at instant E (R379 step 1), as the phase record names it. -/
  | left (w : Wait)
  deriving DecidableEq, Repr

/-- What an instruction that issued and waits read at its issue, and what its registers owe (R62, R80, R113, R116, R122). It
completes with these operands. -/
structure Latch where
  instr  : Instr
  /-- The order of its issue, and the core clock of it. -/
  stamp  : Nat
  clock  : Nat
  s      : Vector Word 64
  c      : BitVec 8
  k      : Vector Word 8
  d      : Vector (BitVec 128) 16
  v      : List (Nat × Lanes)
  /-- The vector names whose registers were dropped: they read what the replay gives (R142). -/
  dropped : List Nat
  fmt    : Vector Word 10
  cfg    : BitVec 3
  srseed : Dword
  /-- The number of its draw of R88, taken at issue. -/
  srctr  : Word
  /-- The registers that it has not yet written, and those that instructions issued later have written since, each with the bits or
  lanes written. -/
  owed   : List (Reg × Word)
  lost   : List (Reg × Word)
  /-- The vector names that its last-read marks free (R53). -/
  marks  : List Nat
  /-- The vector names for whose writes registers are set aside (R119, R122). -/
  room   : List Nat
  /-- The recipe slots on which it has yet to act, and the vector names that its `RTAG` has yet to bind (R148). -/
  slots  : List Nat
  binds  : List Nat
  /-- Its `RTAG` read an input before an earlier result was in it (R61). -/
  early  : Bool
  /-- The store number of its core below which its release waits for accesses (R259, R265). -/
  upto   : Option Nat
  /-- The lanes that have performed their access already (R233). -/
  did    : Word
  /-- What those lanes read. -/
  got    : List (Nat × Nat)
  /-- The index list of its `CPYG` (R315). -/
  index  : List Nat
  deriving DecidableEq, Repr

/-- A fragment record, a queued fragment, or the stream of a copy or maths warp (R112). -/
structure Frag where
  id        : Nat
  record    : Option Nat
  lanes     : Word
  /-- The next word to fetch. -/
  pc        : Dword
  /-- The chain head of the unit in progress (R49); `pc` when no hint is held. -/
  head      : Dword
  /-- The hint words executed before the next non-hint word (R47). -/
  chain     : List Instr
  /-- The word at which SKIP continues (R49). -/
  skip      : Dword
  ret       : List Dword
  conv      : List Conv
  cover     : List Cover
  stallTill : Nat
  /-- The clock before which its port does not select it, after a yield (R54). -/
  restTill  : Nat
  yielded   : Bool
  readyFor  : Nat
  promoted  : Option Nat
  /-- The core clock in which its port last passed it over while it was ready (R110, R450). -/
  passed    : Option Nat
  wait      : Wait
  /-- The remote request of this instruction has its reply (R445). -/
  granted   : Bool
  /-- The lanes whose remote read the peer refused (R444). -/
  denied    : Word
  /-- This instruction's `BSYNC` has arrived already (R363), when WPAR was this. -/
  arrived   : Option (BitVec 16)
  /-- The instruction issued and not yet complete, and the bytes of memory that its access reads or writes: key and number (R262). -/
  latch     : Option Latch
  bytes     : List (Nat × Nat)
  deriving DecidableEq, Repr

/-- A result whose fixed latency has not passed: the register, the core clock from which it is written, and the value
the register held before (R61, R62). -/
inductive InFlight where
  | s (n : Nat) (ready : Nat) (old : Word)
  | k (n : Nat) (ready : Nat) (old : Word)
  | c (n : Nat) (ready : Nat) (old : Bool)
  | d (n : Nat) (ready : Nat) (old : BitVec 128)
  | v (n : Nat) (ready : Nat) (old : Lanes)
  deriving DecidableEq, Repr

/-- The states of a recipe slot (R131). -/
inductive SlotState where
  | empty | defined | live | dropped
  deriving DecidableEq, Repr

/-- A recipe slot (R131, R149). -/
structure Slot where
  state  : SlotState
  body   : List Word
  caps   : List (BitVec 128)
  vd     : Nat
  w64    : Bool
  depth  : Nat
  tmask  : Word
  tagSeq : Nat
  fz     : Bool
  /-- The vector names bound as inputs at `RTAG` (R138). -/
  inputs : List Nat
  deriving DecidableEq, Repr

/-- A resident warp (R102, R114). -/
structure Warp where
  uid      : Nat
  group    : Nat
  role     : Role
  /-- `%warp` -/
  index    : Nat
  core     : Nat
  /-- `%wslot` -/
  slot     : Nat
  /-- Span position, `%gcore`. -/
  pos      : Nat
  mode     : Mode
  started  : Bool
  /-- The order in which warps started on the device, for R110. -/
  age      : Nat
  s        : Vector Word 64
  c        : BitVec 8
  k        : Vector Word 8
  d        : Vector (BitVec 128) 16
  /-- The mapped vector names, ascending (R116). -/
  v        : List (Nat × Lanes)
  budget   : Nat
  fpflags  : BitVec 5
  srctr    : Word
  mark     : BitVec 16
  /-- The mark before the last `SAMPM`, and the core clock of that one (R452). -/
  markOld  : BitVec 16
  markAt   : Option Nat
  slots    : Vector Slot 16
  frags    : List Frag
  nextFrag : Nat
  wpar     : BitVec 16
  la       : Vector Word 16
  /-- Barriers of which the warp is a pending member (R356). -/
  pending  : BitVec 16
  /-- Scratchpad locks held: lane and address (R234). -/
  locks    : List (Nat × Nat)
  /-- For each scope, the lanes that have issued a release `FENCE` of it, which makes their later writes releases of that scope
  (R260, R267). -/
  fenced   : Vector Word 5
  inflight : List InFlight
  deriving DecidableEq, Repr

/-! ### Kernels, grids and groups -/

/-- The fields of a kernel descriptor (R417). -/
structure KernelDesc where
  itabn  : Nat
  entry  : List Word
  attach : List Word
  /-- Minimum and maximum warps of copy, maths and epilogue. -/
  warps  : List (Nat × Nat)
  span   : Nat
  budget : Nat
  rf     : Nat
  sp     : Nat
  ts     : Nat
  args   : Nat
  grid   : Word × Word × Word
  queues : List Word
  bars   : List Byte
  tiles  : List Word
  fmtm   : Word
  fmtw   : List Word
  deriving DecidableEq, Repr

/-- A kernel-table entry (R420): the fields written, the committed ones, and the descriptor as the commit read it. -/
structure KernelEntry where
  part  : Nat
  kid   : Nat
  wDesc : Dword
  wCode : Dword
  wItab : Dword
  wGen  : Word
  desc  : Dword
  code  : Dword
  itab  : Dword
  gen   : BitVec 16
  valid : Bool
  fail  : Bool
  slot  : Nat
  step  : BitVec 8
  mode  : Mode
  kd    : KernelDesc
  /-- A write of CFG whose descriptor the headbox has yet to reach (R421, R436). -/
  commit : Option Word
  deriving DecidableEq, Repr

/-- The states of a grid (R428) that the headbox holds. -/
inductive GridState where
  | admitted | running | closing | complete | abandoned
  deriving DecidableEq, Repr

/-- A grid (R428, R429). -/
structure Grid where
  uid       : Nat
  part      : Nat
  ctx       : Nat
  /-- The submission queue and ring index of its packet. -/
  queue     : Nat
  packet    : Nat
  gridn     : Word
  kid       : Nat
  code      : Dword
  gen       : BitVec 16
  mode      : Mode
  kd        : KernelDesc
  x         : Nat
  y         : Nat
  z         : Nat
  args      : List Byte
  handler   : Bool
  prio      : Nat
  done      : Dword
  dadd      : Word
  localDone : Bool
  state     : GridState
  /-- The next linear index not yet made a group, and the groups retired. -/
  next      : Nat
  retired   : Nat
  /-- The updates of its format words that are under way (R79, R81). -/
  installing : List Nat
  /-- When it was admitted, and the indexes of Pending groups that were killed (R405). -/
  since     : Nat
  killed    : List Nat
  deriving DecidableEq, Repr

/-- The states of a group (R365). -/
inductive GroupState where
  | pending | placed | running | waiting | evicting | evicted | resumed | retiring
  deriving DecidableEq, Repr

/-- What a span position holds on its core (R368, R119, R229, R275). -/
structure Place where
  core     : Nat
  /-- Granules of the register pool. -/
  granules : Nat
  spad     : List Host.Cell
  tiles    : List Host.Cell
  deriving DecidableEq, Repr

/-- A standing pre-emption request (R380). -/
structure Preempt where
  since : Nat
  /-- The group whose failed placement made it, or none for a SAVE. -/
  cause : Option Nat
  /-- Nothing is left to report: PREEMPT_LATE has been raised for it, or the group was Waiting in time. -/
  late  : Bool
  /-- The group of `cause` has since been placed, or is no longer unplaced, or was tried while no group was resident (R385). -/
  met   : Bool
  deriving DecidableEq, Repr

/-- A warp as the headbox places it (R368): its role, `%warp`, span position and budget, the barriers of which it is a
pending member (R356), and the release fences of its lanes (R260). -/
structure SavedWarp where
  role    : Role
  index   : Nat
  pos     : Nat
  budget  : Nat
  pending : BitVec 16
  fenced  : Vector Word 5
  deriving DecidableEq, Repr

/-- A KILL of a warp that has yet to take effect (R405): role and `%warp`, whether DBGST reports it, and the store number of its core
below which its departure, a release, waits for accesses (R270, R356). -/
structure Kill where
  role  : Role
  index : Nat
  debug : Bool
  upto  : Option Nat
  deriving DecidableEq, Repr

/-- A group (R365). -/
structure Group where
  uid       : Nat
  grid      : Nat
  part      : Nat
  ctx       : Nat
  gx        : Word
  gy        : Word
  gz        : Word
  linear    : Nat
  state     : GroupState
  places    : List Place
  /-- PEND of copy, maths and epilogue (R372). -/
  pend      : List Nat
  evct      : Word
  /-- ROLES of each barrier as last set (R364), and the Broken barriers (R352). -/
  roles     : Vector (BitVec 3) 16
  broken    : BitVec 16
  placedAt  : Nat
  waitingAt : Nat
  unplacedAt : Nat
  resumable : Option Nat
  evictedAt : Nat
  preempt   : List Preempt
  hungRaised : Bool
  /-- Since when the group is hung (R387). -/
  hungSince : Option Nat
  /-- The phase record placed: offset, size and directory entry (R397). -/
  saved     : Option (Nat × Nat × Nat)
  /-- What the headbox keeps of an evicted group to place it again: its warps, and the pool granules of each position
  (R368). -/
  savedWarps : List SavedWarp
  savedPool : List Nat
  /-- The waits of its fragments at E (R384), for R385. -/
  savedWaits : List Wait
  /-- Kills held for resumption, and those of its warps that end once what they issued is complete (R104, R405). -/
  kills     : List Kill
  /-- The store number of each of its cores at E (R272). -/
  storesAt  : List Nat
  /-- Every warp is to end once the group is Evicted (R405). -/
  doomed    : Bool
  deriving DecidableEq, Repr

/-! ### Contexts -/

/-- The states of a context (R389); a free slot holds no context. -/
inductive CtxState where
  | created | active | suspended | faulted | destroying
  deriving DecidableEq, Repr

/-- A fault record (R398). -/
structure Record where
  pc     : Dword
  lanes  : Word
  code   : Word
  frag   : Word
  seq    : BitVec 24
  detail : Word
  aux    : Word
  addr   : Dword
  who    : Word
  kid    : Word
  gx     : Word
  gy     : Word
  gz     : Word
  gridn  : Word
  /-- The core and the store number below which its stores must be acknowledged before the record is written (R401). -/
  behind : Option (Nat × Nat)
  /-- A SIGLOST raised for FQSIG itself, whose record adds nothing to FQSIG (R494). -/
  own    : Bool
  deriving DecidableEq, Repr

/-- A page request (R244), as its 16 bytes. -/
abbrev Request := BitVec 128

/-- A record not yet answered (R402): its code, and the fragment it parks, or none, with the word at which SKIP continues
(R49). The group, role, `%warp` and lanes name that fragment in a phase record. -/
structure Live where
  seq    : BitVec 24
  code   : Nat
  group  : Nat
  role   : Role
  index  : Nat
  frag   : Option FragRef
  lanes  : Word
  skip   : Dword
  deriving DecidableEq, Repr

/-- What an addition to a signal is for (R494): FQSIG, a packet of a queue, or a grid's completion. -/
inductive AddFor where
  | fqsig
  | packet (queue idx : Nat)
  | grid (uid : Nat)
  deriving DecidableEq, Repr

/-- An addition that waits on a pager future, or for a free one (R494). -/
structure PendingAdd where
  future : Option Nat
  addr   : Dword
  n      : Nat
  what   : AddFor
  deriving DecidableEq, Repr

/-- The actions of an answer (R402). -/
inductive Answer where
  | resume | skip | kill
  deriving DecidableEq, Repr

/-- A submission queue (R424), and the packet that its headbox has read and that is not yet ready (R426). -/
structure SubQueue where
  n       : Nat
  base    : Dword
  cfg     : Word
  stop    : Bool
  cause   : BitVec 8
  wptr    : Word
  rptr    : Word
  blocked : Option (BitVec 512)
  /-- The future that a packet read waits on (R427). -/
  future  : Option Nat
  /-- Packets taken and not yet complete: ring index (R426 BAR). -/
  open_   : List Nat
  /-- A shoot-down in progress: its ring index and its packet (R242). -/
  shooting : Option (Nat × BitVec 512)
  deriving DecidableEq, Repr

/-- An update of a format entry under way (R79): its order, the entry, the word, and the cores whose replica holds it. -/
structure Update where
  stamp : Nat
  n     : Nat
  word  : Word
  cores : List Nat
  deriving DecidableEq, Repr

/-- A context (R389, R395). -/
structure Ctx where
  part     : Nat
  slot     : Nat
  state    : CtxState
  saving   : Bool
  ctxid    : Word
  cfg      : BitVec 3
  srseed   : Dword
  evth     : Word
  pdl      : Word
  rwth     : Word
  ptroot   : Dword
  savebase : Dword
  savesize : Word
  fqbase   : Dword
  fqsize   : Word
  fqhead   : Word
  fqtail   : Word
  fqsig    : Dword
  prqbase  : Dword
  prqsize  : Word
  prqhead  : Word
  prqtail  : Word
  fmt      : Vector Word 10
  /-- Entries in Updating, oldest update first (R79). -/
  updating : List Update
  futures  : List Future
  heldFaults   : List Record
  heldRequests : List Request
  /-- How many of them, from the front, the counter of R460 has counted (R492). -/
  countedFaults   : Nat
  countedRequests : Nat
  live     : List Live
  answers  : List (BitVec 24 × Answer)
  seq      : BitVec 24
  gridn    : Word
  queues   : List SubQueue
  /-- Save-area records placed: offset, size, directory entry (R397). -/
  placed   : List (Nat × Nat × Nat)
  saveFull : Bool
  adds     : List PendingAdd
  deriving DecidableEq, Repr

/-! ### Memory system -/

/-- Who issues an access to global memory: the core, and what the record of a refusal by a peer says of the issuer (R444). -/
structure Sender where
  core  : Nat
  warp  : Nat
  /-- The lanes whose access it is (R250). -/
  lanes : Word
  part  : Nat
  ctx   : Nat
  group : Nat
  grid  : Nat
  who   : Word
  frag  : Word
  kid   : Word
  gx    : Word
  gy    : Word
  gz    : Word
  gridn : Word
  /-- The number of the instruction's access, and whether a refusal of it has its record. -/
  op    : Nat
  told  : Bool
  va    : Nat
  deriving DecidableEq, Repr

/-- A store-buffer entry (R256). -/
structure StoreEntry where
  from_ : Sender
  seq   : Nat
  key   : Nat
  data  : List Byte
  /-- The scope at which the write is a release (R260), for the tag of R268; none for a plain store. -/
  rel   : Option Nat
  /-- The core clock at which it entered. -/
  since : Nat
  /-- It leaves the buffer as soon as its home lets it perform. -/
  due   : Bool
  deriving DecidableEq, Repr

/-- A release tag (R268). `draining`: the slice asks for a drain; `drained`: the request has been performed, and the reply is due.
A tag that another core's release replaces stays, draining, until the reply (log entry 82). -/
structure Tag where
  line     : Nat
  core     : Nat
  scope    : Nat
  seq      : Nat
  draining : Bool
  drained  : Bool
  deriving DecidableEq, Repr

/-- A cached translation: a leaf, or a table pointer of a level (R242). -/
structure TlbEntry where
  part  : Nat
  slot  : Nat
  /-- First virtual byte, size, level and entry. -/
  base  : Nat
  size  : Nat
  level : Nat
  pte   : Dword
  deriving DecidableEq, Repr

/-- The kinds of copy (R306). -/
inductive CopyKind where
  | cpy | cpys | cpyt | cpym | cpyr | cpyg | cpyp
  deriving DecidableEq, Repr

/-- One record of a copy: its element size and, row by row, each element's virtual address and key; none for an element that
CLMP drops (R310, R311). -/
structure CopySide where
  elem : Nat
  rows : List (List (Option (Nat × Nat)))
  deriving DecidableEq, Repr

/-- A copy accepted by a copy unit (R304). -/
structure Copy where
  uid      : Nat
  core     : Nat
  warp     : Nat
  group    : Nat
  part     : Nat
  ctx      : Nat
  grid     : Nat
  kind     : CopyKind
  /-- The barrier credited, 16 for `CPYP`, and the bytes (R311). -/
  barrier  : Nat
  credit   : Nat
  rows     : Nat
  rowBytes : Nat
  soff     : Nat
  swz      : Nat
  /-- Global to scratchpad. -/
  load     : Bool
  /-- The span positions whose scratchpads it reads or writes. -/
  targets  : List Nat
  /-- The operation of `CPYR` (R314). -/
  op       : Nat
  sides    : List CopySide
  /-- Virtual pages whose translations it holds. -/
  pages    : List Nat
  running  : Bool
  /-- Its writes have performed on the device and its link messages are sent. -/
  sent     : Bool
  /-- Lines of device memory to be owned, ascending, and how many of them are owned. -/
  lines    : List Nat
  owned    : Nat
  /-- When its request for the next line reached the home slice (R319). -/
  asked    : Option Nat
  /-- The store number of its core at acceptance (R321), and at the release of its credit (R270). -/
  after    : Nat
  closing  : Option Nat
  from_    : Sender
  /-- What a peer refused: lines of reads, the mask of destinations, and the first address (R444). -/
  refusedLines : List Nat
  refusedMask  : Nat
  refusedVa    : Option Nat
  deriving DecidableEq, Repr

/-- The engine operations (R277), and the binding of a gang, with what they read at issue. -/
inductive TileKind where
  /-- Descriptors and latched entries of A and B; the mode, `.smx`; the span positions whose scratchpads hold the operands,
  or none for the position that performs the operation. -/
  | mma (a b : Dword) (fa fb : Word) (mode : Nat) (smx : Bool) (posA posB : Option Nat)
  | zero
  | fill (v : Dword)
  /-- The factor, or the mode and the byte and position of an array of factors. -/
  | scale (f : Dword) (mode at_ pos : Nat)
  /-- The source tile and its gang word, and the issuing span position. -/
  | smx (src srcGang pos : Nat) (divide : Bool)
  /-- Descriptor, scale offset, latched entry, seed of R87, and the values of AMAX that warps have read while it was in flight
  (R297). -/
  | drain (desc : Dword) (soff : Nat) (fmt : Word) (seed : Dword) (seen : List (Nat × Nat))
  | sidew (mx sm row : Word)
  | gang (word : Nat)
  deriving DecidableEq, Repr

/-- An operation queued on the engines of `members` (R278, R290). -/
structure TileOp where
  uid     : Nat
  warp    : Nat
  group   : Nat
  /-- The core whose maths port issued it. -/
  from_   : Nat
  t       : Nat
  /-- The gang word of the tile at issue, zero when it is not ganged. -/
  gang    : Nat
  kind    : TileKind
  /-- The cores that perform it, with their span positions. -/
  members : List (Nat × Nat)
  deriving DecidableEq, Repr

/-- One lane of an atomic access: the key of its bytes, its size, its operation and its operands (R227). -/
structure AtomReq where
  lane : Nat
  key  : Nat
  size : Nat
  op   : Nat
  b    : Dword
  /-- The comparand of a compare-and-swap. -/
  cmp  : Option Dword
  va   : Nat
  deriving DecidableEq, Repr

/-- Where the old values of an atomic go. -/
inductive AtomDest where
  | nowhere
  | vector (vd : Nat) (wide : Bool) (zero : Word)
  | scalar (s : Nat) (wide : Bool)
  deriving DecidableEq, Repr

/-- A remote atomic whose reply is outstanding (R445, R446): the lanes sent, and those that have performed, with their old values. -/
structure RemoteReq where
  frag  : FragRef
  core  : Nat
  group : Nat
  grid  : Nat
  from_ : Sender
  reqs  : List AtomReq
  dest  : AtomDest
  olds  : List (Nat × Nat)
  /-- The lanes that the peer refused. -/
  refused : Word
  deriving DecidableEq, Repr

/-- What a message asks of its destination. -/
inductive MsgKind where
  /-- A line read for a fragment, for a copy, or to be brought into its home slice. -/
  | read (frag : FragRef)
  | prefetch
  | copyRead (copy : Nat)
  /-- A store, with the scope at which it is a release. -/
  | write (rel : Option Nat)
  /-- A write through destination record `k` of a copy, or its contribution with an operation of R314. -/
  | copyWrite (copy k : Nat) (reduce : Option Nat)
  /-- One lane of an atomic, with its scope. -/
  | atomic (frag : FragRef) (scope : Nat) (req : AtomReq) (rel : Option Nat)
  /-- What the device sends and delivers within one step: a read of a walk, a fetch or a headbox, or a message of class 3. -/
  | notice
  deriving DecidableEq, Repr

/-- A message held by its sender until it is acknowledged (R441). -/
structure Message where
  /-- The model's own number of the message, and its sequence number in the flow. -/
  uid       : Nat
  seq       : BitVec 16
  from_     : Sender
  /-- The store number of its core. -/
  order     : Nat
  key       : Nat
  data      : List Byte
  kind      : MsgKind
  /-- The reorder buffer of its destination has delivered it, and it has performed at its home. -/
  delivered : Bool
  performed : Bool
  deriving DecidableEq, Repr

/-- A flow of one class from a die to the other die (`device`), the host or a peer (R273). -/
structure Flow where
  id    : Nat
  die   : Nat
  cls   : Nat
  target : Home
  link  : Nat
  next  : BitVec 16
  held  : List Message
  deriving DecidableEq, Repr

/-- The link states (R436). -/
inductive LinkState where
  | down | training | up | degraded
  deriving DecidableEq, Repr

/-- A link (R436, R442, R447). -/
structure Link where
  state   : LinkState
  rtrn    : BitVec 8
  cerr    : BitVec 16
  fails   : Nat
  enabled : Bool
  /-- Send permits held, and those the far side holds, by class; of link 0, those of die 0 and those of die 1. -/
  permits : Vector Nat 4
  far     : Vector Nat 4
  audits  : Word
  deriving DecidableEq, Repr

/-- A mailbox message (R345, R346). -/
structure MboxMsg where
  tag        : BitVec 16
  w1         : Word
  w2         : Word
  w3         : Word
  part       : Nat
  ctx        : Nat
  since      : Nat
  receivable : Bool
  deriving DecidableEq, Repr

/-- A configured mailbox (R343). -/
structure Mailbox where
  m    : Nat
  cfg  : Word
  msgs : List MboxMsg
  deriving DecidableEq, Repr

/-- An access-table entry that has been written (R392). -/
structure AccEntry where
  target : Nat
  entry  : Nat
  word   : BitVec 128
  deriving DecidableEq, Repr

/-! ### Partitions and housekeeping -/

/-- A partition's registers (R391, R394, R370, R426, R448). -/
structure Part where
  mask     : BitVec 6
  /-- Commands written and not yet complete, oldest first, and the status of the last one written. -/
  cmds     : List Dword
  lastOp   : BitVec 8
  lastStat : BitVec 2
  dbg0     : Dword
  dbg1     : Dword
  dbgst    : BitVec 2
  /-- Placement pointer (R370) and the queue pointers of the four priorities (R426). -/
  pointer  : Nat
  qpointer : Vector Nat 4
  smpcfg   : Word
  smpnext  : Option Word
  smpbase  : Dword
  smpsize  : Word
  shead    : Word
  stail    : Word
  sdrop    : Word
  sidle    : Word
  /-- Samples taken whose records have yet to reach the ring, oldest first: core and record (R453). -/
  samples  : List (Nat × List (BitVec 8))
  deriving DecidableEq, Repr

/-- The discard and held counters of R460. -/
structure Counters where
  doorbells : Word
  messages  : Word
  csrs      : Word
  answers   : Word
  queues    : Word
  samplers  : Word
  held      : Word
  deriving DecidableEq, Repr

/-- A storage-error counter (R25 to R29, R460). -/
inductive ErrKind where
  | corrected | uncorrectable | scrubbed
  deriving DecidableEq, Repr

structure ErrCount where
  die   : Nat
  cls   : Nat
  kind  : ErrKind
  count : Word
  deriving DecidableEq, Repr

/-- The last issue of a port (R108) and what a sample of that clock says of it (R449 to R451): the fragment's place in the cycle,
its chain head, SWHO, mark, context and kernel. -/
structure PortUse where
  core  : Nat
  port  : Nat
  clock : Nat
  /-- The clock from which the port is free. -/
  till  : Nat
  place : Nat
  pc    : Dword
  who   : Word
  mark  : BitVec 16
  part  : Nat
  slot  : Nat
  kid   : Nat
  deriving DecidableEq, Repr

/-- The firmware slots (R457, R458). An image that is `none` is the one the device was made with. -/
structure Firmware where
  /-- The slot that runs, its image, and the image in the other slot, if any. -/
  slot     : BitVec 1
  running  : Option FirmwareImage
  other    : Option (Option FirmwareImage)
  /-- The other slot was staged since reset. -/
  staged   : Bool
  /-- The security version fused in the dies. -/
  security : Nat
  /-- The images whose digests the measurement register was extended with since reset. -/
  measured : List (Option FirmwareImage)
  /-- Whether some slot verified at the last start, and whether every image that it tried did: the last verification status (R460). -/
  verified : Bool
  clean    : Bool
  deriving DecidableEq, Repr

/-- An access of a peer to device memory: a load, a store, or an atomic of R227. -/
inductive PeerOp where
  | load
  | store (data : List Byte)
  | atomic (op size : Nat) (b : Dword)
  deriving DecidableEq, Repr

/-- Which agent moves next (the model's own; log entry 1). -/
inductive Turn where
  /-- An event of the opcode table happens. -/
  | event (i : Instr)
  /-- The port of a core selects and issues (R110): port 0 to 3 epilogue, 4 copy, 5 maths. -/
  | issue (core port : Nat)
  /-- One nominal core clock passes. -/
  | clock
  /-- The oldest store-buffer entry of a full buffer performs (R256). -/
  | drain (core : Nat)
  /-- A translation cache keeps the leaf for an address, or a table pointer on its walk, by its level; or it discards what it
  holds for the address (R242). -/
  | cache (part slot : Nat) (va level : Nat)
  | uncache (part slot : Nat) (va : Nat)
  /-- Link-level retry corrects an error of a link (R447). -/
  | retry (link : Nat)
  /-- An instruction that issued and waited goes on with its operands (R122). -/
  | finish (warp frag : Nat)
  /-- A core's replica of a format entry takes the word of the entry's oldest update (R79). -/
  | replica (part slot core n : Nat)
  /-- The number that the next future takes, when it is free (R244). -/
  | future (n : Nat)
  /-- A peer accesses device memory (R249, R320). -/
  | peer (n addr : Nat) (op : PeerOp)
  /-- A line leaves the L2 (R268). -/
  | evictLine (line : Nat)
  /-- The driver sets the six weights of R370 to zero. -/
  | zeroWeights
  /-- The driver allocates physical frames in a context (R28), or sets the power cap (R459). -/
  | allocate (first last part slot : Nat)
  | cap (w : Dword)
  deriving DecidableEq, Repr

/-- The device. -/
structure State where
  agenda   : List Turn
  cur      : Option FragRef
  draws    : Nat
  /-- The number that the next future takes, when it is free (R244); the model's own. -/
  prefer   : Option Nat
  /-- Numbers given out so far: objects and order stamps of the model. -/
  fresh    : Nat
  ticks    : Nat
  quireClk : Vector Nat 6
  clkStep  : Vector Nat 6
  /-- Since which tick each quire's readings have stayed below their limits (R459). -/
  calm     : Vector Nat 6
  /-- The last reading of each quire, the ticks it has spent at each clock step of 8 to 16 sixteenths, and the module power cap
  (R459, R460). -/
  readings : Vector SensorReading 6
  stepTime : Vector (Vector Nat 9) 6
  powerCap : Dword
  portBusy : List PortUse
  mem      : List Host.Cell
  sbuf     : List StoreEntry
  sbufSeq  : Vector Nat 48
  tags     : List Tag
  tlb      : List TlbEntry
  warps    : List Warp
  groups   : List Group
  grids    : List Grid
  ctxs     : List Ctx
  kernels  : List KernelEntry
  parts    : Vector Part 6
  partst   : BitVec 2
  acc      : List AccEntry
  /-- Lower halves of window registers written and waiting for their upper halves: BAR and offset, and the word. -/
  lows     : List (Nat × Dword)
  mboxes   : List Mailbox
  peers    : List (Nat × BitVec 16)
  foffer   : Dword
  fenable  : Dword
  flatch   : Dword
  started  : Bool
  copies   : List Copy
  engines  : List TileOp
  remotes  : List RemoteReq
  /-- Lines that the host may hold (R440). -/
  hostHeld : List Nat
  /-- The context in which the driver allocated a physical frame: first and last byte, partition and slot (R28). -/
  frames   : List (Nat × Nat × Nat × Nat)
  tagSeq   : Vector Word 48
  sampled  : List (Nat × Nat × Nat)
  links    : Vector Link 14
  flows    : List Flow
  errors   : List ErrCount
  counters : Counters
  firmware : Firmware
  weights  : Vector (BitVec 8) 6
  heldOut  : BitVec 6
  barred   : Bool
  /-- MSI-X messages sent (R401): partition and slot, newest first; and those that link 13 has yet to carry, oldest first. -/
  msix     : List (Nat × Nat)
  irqs     : List (Nat × Nat)
  /-- Signed measurements offered to the host (R457). -/
  reported : List (BitVec 384)
  deriving DecidableEq, Repr

abbrev StoreEntry.core (e : StoreEntry) : Nat := e.from_.core
abbrev StoreEntry.group (e : StoreEntry) : Nat := e.from_.group
abbrev Message.core (m : Message) : Nat := m.from_.core

/-! ### Reset -/

/-- A recipe slot that is Empty (R131). -/
def Slot.none : Slot :=
  { state := .empty, body := [], caps := [], vd := 0, w64 := false, depth := 0, tmask := 0, tagSeq := 0,
    fz := false, inputs := [] }

/-- The configured permits of a link, by class (R442). -/
def permitTable (link : Nat) : Vector Nat 4 :=
  if link = 0 then #v[2048, 2048, 4096, 256]
  else if link = 13 then #v[128, 128, 256, 32]
  else #v[256, 256, 512, 64]

/-- A link after the start of R454: links 0 and 13 have trained, the others are Down (R436). -/
def Link.reset (link : Nat) : Link :=
  { state := if link = 0 ∨ link = 13 then .up else .down, rtrn := 0, cerr := 0, fails := 0,
    enabled := link = 0 ∨ link = 13,
    permits := if link = 0 ∨ link = 13 then permitTable link else Vector.replicate 4 0,
    far := if link = 0 ∨ link = 13 then permitTable link else Vector.replicate 4 0, audits := 0 }

/-- A partition's registers at reset (R448 for the sampler; log entry 3 for the rest). -/
def Part.reset : Part :=
  { mask := 0, cmds := [], lastOp := 0, lastStat := 0, dbg0 := 0, dbg1 := 0, dbgst := 0, pointer := 0,
    qpointer := Vector.replicate 4 0, smpcfg := 0, smpnext := none, smpbase := 0, smpsize := 64, shead := 0,
    stail := 0, sdrop := 0, sidle := 0, samples := [] }

/-- The machine right after the start of R454: storage zero, links 0 and 13 up, the feature offer posted, no context,
no kernel and no warp. Values that the spec does not give are named in log entry 3. -/
def State.reset : State :=
  { agenda := [], cur := none, draws := 0, prefer := none, fresh := 0, ticks := 0, quireClk := Vector.replicate 6 0,
    clkStep := Vector.replicate 6 16, calm := Vector.replicate 6 0,
    readings := Vector.ofFn (fun q => { quire := q.val, temperature := 0, droop := 0, weight := 0, overTemp := false,
                                        overDroop := false, overCap := false, critical := false }),
    stepTime := Vector.replicate 6 (Vector.replicate 9 0), powerCap := 0, portBusy := [], mem := [], sbuf := [],
    sbufSeq := Vector.replicate 48 0, tags := [], tlb := [], warps := [], groups := [], grids := [], ctxs := [],
    kernels := [], parts := Vector.replicate 6 Part.reset, partst := 0, acc := [], lows := [], mboxes := [], peers := [],
    foffer := 0x1F, fenable := 0, flatch := 0, started := false, copies := [], engines := [], remotes := [],
    hostHeld := [], frames := [], tagSeq := Vector.replicate 48 0, sampled := [],
    links := Vector.ofFn (fun i => Link.reset i.val), flows := [], errors := [],
    counters := { doorbells := 0, messages := 0, csrs := 0, answers := 0, queues := 0, samplers := 0, held := 0 },
    firmware := { slot := 0, running := none, other := none, staged := false, security := 0, measured := [none], verified := true,
                  clean := true },
    weights := Vector.replicate 6 0, heldOut := 0, barred := false, msix := [], irqs := [], reported := [] }

end Sys2Proof.Machine
end

