-- ==== Sys2Proof/Machine/Memory.lean ====
section
/-! DEFINITION. Memory as a canonical list of cells, the keys of the address spaces, the store buffer and the flows
(R14, R255, R256, R273, R441). -/

namespace Sys2Proof.Machine

/-! ### Cells -/

/-- The byte at an address; an unlisted address reads zero (R454; log entries 4 and 5). -/
def memRead : List Host.Cell → Nat → Byte
  | [], _ => 0
  | (k, b) :: r, a => if k = a then b else memRead r a

/-- A cell put at its place in a list ascending by address. -/
def insertCell (a : Nat) (b : Byte) : List Host.Cell → List Host.Cell
  | [] => [(a, b)]
  | (k, c) :: r => if a < k then (a, b) :: (k, c) :: r else (k, c) :: insertCell a b r

/-- The list without the cells of an address. -/
def removeCell (a : Nat) : List Host.Cell → List Host.Cell
  | [] => []
  | (k, c) :: r => if k = a then removeCell a r else (k, c) :: removeCell a r

/-- Memory with one byte written; writing zero removes the cell. -/
def memWrite (m : List Host.Cell) (a : Nat) (b : Byte) : List Host.Cell :=
  if b = 0 then removeCell a m else insertCell a b (removeCell a m)

/-- `n` bytes from an address. -/
def memReads (m : List Host.Cell) (a : Nat) : Nat → List Byte
  | 0 => []
  | n + 1 => memRead m a :: memReads m (a + 1) n

/-- Bytes written from an address upward. -/
def memWrites (m : List Host.Cell) (a : Nat) : List Byte → List Host.Cell
  | [] => m
  | b :: bs => memWrites (memWrite m a b) (a + 1) bs

/-- The cells of bytes from an address upward, those that differ from an unlisted byte. -/
def cellsOf (a : Nat) : List Byte → List Host.Cell
  | [] => []
  | b :: bs => if b = 0 then cellsOf (a + 1) bs else (a, b) :: cellsOf (a + 1) bs

/-- A run of bytes written at once. -/
def memPut (m : List Host.Cell) (a : Nat) (bs : List Byte) : List Host.Cell :=
  m.filter (fun c => decide (c.1 < a)) ++ cellsOf a bs ++ m.filter (fun c => decide (a + bs.length ≤ c.1))

/-- The cells of `n` bytes from an address, as a memory of their own. -/
def memSlice (m : List Host.Cell) (a n : Nat) : List Host.Cell :=
  (m.filter (fun c => decide (a ≤ c.1) && decide (c.1 < a + n))).map (fun c => (c.1 - a, c.2))

/-- `n` bytes from an address replaced by a memory of their own. -/
def memSplice (m : List Host.Cell) (a n : Nat) (img : List Host.Cell) : List Host.Cell :=
  m.filter (fun c => decide (c.1 < a)) ++ (img.filter (fun c => decide (c.1 < n))).map (fun c => (a + c.1, c.2)) ++
    m.filter (fun c => decide (a + n ≤ c.1))

/-- The little-endian number of `n` bytes at an address (R2). -/
def memNat (m : List Host.Cell) (a n : Nat) : Nat := natLE (memReads m a n)

/-- The low `n` bytes of a number, written little-endian (R2). -/
def memSetNat (m : List Host.Cell) (a n x : Nat) : List Host.Cell := memWrites m a (bytesLE n x)

/-- The canonical form: addresses strictly rising, no cell equal to what an unlisted address reads as. -/
def Memory.wf : List Host.Cell → Bool
  | [] => true
  | [(_, b)] => b != 0
  | (k, b) :: (k', b') :: r => b != 0 && decide (k < k') && Memory.wf ((k', b') :: r)

/-! ### Keys of the address spaces -/

/-- The first key of a die, for what goes to the die itself. -/
def dieKey (die : Nat) : Nat := die * 0x3000000000

/-- The size of the key range of one memory. -/
def spaceSize : Nat := 2 ^ 52

/-- The key of a physical byte of a memory (R237): device memory from 0, host memory next, then each peer. -/
def Home.key (h : Home) (pa : Nat) : Nat :=
  match h with
  | .device => pa
  | .host => spaceSize + pa % spaceSize
  | .peer n => (2 + n) * spaceSize + pa % spaceSize

/-- The memory of a key. -/
def homeOf (key : Nat) : Home :=
  if key < spaceSize then .device
  else if key < 2 * spaceSize then .host
  else .peer (key / spaceSize - 2)

/-- Device memory ends at 384 GiB (R14). -/
def deviceBytes : Nat := 0x6000000000

/-- The die that a device line is homed on (R14). -/
def dieOfKey (key : Nat) : Nat := if key < 0x3000000000 then 0 else 1

/-- The 128-byte line of a key. -/
def lineOf (key : Nat) : Nat := key / 128

def quireOf (core : Nat) : Nat := core / 8
def dieOf (core : Nat) : Nat := core / 24

/-- Where an agent sits (R249): on a core, in the headbox of a die, or outside the device. -/
inductive AgentSite where
  | core (c : Nat)
  | headbox (die : Nat)
  | host
  | peer (n : Nat)
  deriving DecidableEq, Repr

/-- Whether an agent belongs to the device (R249). -/
def AgentSite.onDevice : AgentSite → Bool
  | .core _ => true
  | .headbox _ => true
  | _ => false

/-- Whether agent `b` lies in the instance of a scope taken by agent `a` (R252). -/
def inInstance (scope : Nat) (a b : AgentSite) : Bool :=
  match scope, a, b with
  | 0, .core c, .core d => c == d
  | 1, .core c, .core d => quireOf c == quireOf d
  | 2, .core c, .core d => dieOf c == dieOf d
  | 2, .core c, .headbox die => dieOf c == die
  | 3, .core _, b => b.onDevice
  | 4, _, _ => true
  | _, .headbox _, b => b.onDevice
  | _, .host, _ => true
  | _, .peer _, _ => true
  | _, .core _, _ => false

/-- Two operations are scope-matched (R253). -/
def scopeMatched (sx : Nat) (a : AgentSite) (sy : Nat) (b : AgentSite) : Bool := inInstance sx a b && inInstance sy b a

/-- Whether core `d` lies in the instance of a scope taken by an agent of core `c` (R252). -/
def inScope (scope c d : Nat) : Bool := inInstance scope (.core c) (.core d)

/-- Whether a key is homed away from a die: on the other die, in host memory or in a peer's (R15, R18). -/
def away (die key : Nat) : Bool := decide (spaceSize ≤ key) || dieOfKey key != die

/-! ### Flows (R273, R441) -/

/-- Two byte ranges meet. -/
def rangesMeet (a n b m : Nat) : Bool := decide (a < b + m) && decide (b < a + n)

/-- The flow of a class from a die toward a memory away from it, a fresh one when none exists (R441). -/
def State.flowFor (s : State) (die cls : Nat) (target : Home) : Flow :=
  match s.flows.find? (fun f => f.die == die && f.cls == cls && f.target == target) with
  | some f => f
  | none => { id := s.fresh, die := die, cls := cls, target := target, link := 0, next := 0, held := [] }

def State.setFlow (s : State) (f : Flow) : State :=
  if s.flows.any (fun g => g.id == f.id) then
    { s with flows := s.flows.map (fun g => if g.id == f.id then f else g) }
  else { s with flows := s.flows ++ [f], fresh := s.fresh + 1 }

/-- The unacknowledged messages that a flow may have (R441). -/
def flowLimit : Nat := 32768

/-- The sender of what a die sends of itself for a context; partition 6 is none. -/
def Sender.ofDie (die part slot : Nat) : Sender :=
  { core := 24 * die, warp := 0, lanes := 0, part := part, ctx := slot, group := 0, grid := 0, who := 0, frag := 0, kid := 0,
    gx := 0, gy := 0, gz := 0, gridn := 0, op := 0, told := false, va := 0 }

/-- A message in its flow, with the next sequence number; `order` is the store number of its core, and `here`: it is at its
destination at once. -/
def State.sendAs (s : State) (here : Bool) (cls : Nat) (from_ : Sender) (order key : Nat) (data : List Byte) (kind : MsgKind) :
    State :=
  let f := s.flowFor (dieOf from_.core) cls (homeOf key)
  let s := s.setFlow f
  let m : Message :=
    { uid := s.fresh, seq := f.next, from_ := from_, order := order, key := key, data := data, kind := kind, delivered := here,
      performed := here }
  ({ s with fresh := s.fresh + 1 }).setFlow { f with next := f.next + 1, held := f.held ++ [m] }

/-- A message sent in its flow. -/
def State.send (s : State) (cls : Nat) (from_ : Sender) (order key : Nat) (data : List Byte) (kind : MsgKind) : State :=
  s.sendAs false cls from_ order key data kind

/-- Whether a message is a store or an atomic of a warp (class 1 of R273). -/
def Message.ordered (m : Message) : Bool :=
  match m.kind with
  | .write _ => true
  | .atomic .. => true
  | _ => false

/-- Whether a store or atomic that a core sent before store number `upto` has not performed at its home. -/
def State.sentUnperformed (s : State) (core upto : Nat) : Bool :=
  s.flows.any (fun f => f.held.any (fun m => m.core == core && m.ordered && decide (m.order < upto) && !m.performed))

/-- Whether a store or atomic of the core to host or peer memory, before store number `upto`, is not acknowledged (R265, R274). -/
def State.unacknowledged (s : State) (core upto : Nat) : Bool :=
  s.flows.any (fun f => f.target != .device && f.held.any (fun m => m.core == core && m.ordered && decide (m.order < upto)))

/-- Whether an access of the core before store number `upto` waits in its store buffer or has not performed at its home. -/
def State.unperformed (s : State) (core upto : Nat) : Bool :=
  s.sbuf.any (fun e => e.core == core && decide (e.seq < upto)) || s.sentUnperformed core upto

/-! ### Release tags (R268) -/

/-- The release tag of a line after a release of core, quire or die scope performs there. A tag of another core drains first: it
stays until its reply, and a read waits for both (log entry 82). -/
def State.setTag (s : State) (line core scope seq : Nat) : State :=
  if scope ≤ 2 then
    let mine := s.tags.find? (fun t => t.line == line && t.core == core)
    let others := s.tags.filter (fun t => !(t.line == line && t.core == core))
    { s with tags :=
        { line := line, core := core, scope := scope, seq := seq, draining := (mine.map Tag.draining).getD false, drained := false } ::
          others.map (fun t => if t.line == line then { t with draining := true } else t) }
  else s

/-- The tags of a line. -/
def State.tagsOf (s : State) (line : Nat) : List Tag := s.tags.filter (fun t => t.line == line)

/-! ### Performing at the home (R255) -/

/-- A write performs at its home; a release sets the tag of a device line. -/
def State.writeHome (s : State) (core order key : Nat) (data : List Byte) (rel : Option Nat) : State :=
  let s := { s with mem := memWrites s.mem key data }
  match rel with
  | some scope => if key < spaceSize then s.setTag (lineOf key) core scope order else s
  | none => s

/-- A store-buffer entry leaves the buffer: it performs at a home on its own die, and is a message of class 1 toward any other
(R256, R273). -/
def State.performEntry (s : State) (e : StoreEntry) : State :=
  if away (dieOf e.core) e.key then s.send 1 e.from_ e.seq e.key e.data (.write e.rel)
  else s.writeHome e.core e.seq e.key e.data e.rel

/-- A release wider than core. -/
def StoreEntry.wide (e : StoreEntry) : Bool := decide (0 < e.rel.getD 0)

def StoreEntry.meets (e f : StoreEntry) : Bool := rangesMeet e.key e.data.length f.key f.data.length

/-- Whether a copy owns a device line (R319, R320). -/
def State.copyOwns (s : State) (line : Nat) : Bool := s.copies.any (fun c => (c.lines.take c.owned).contains line)

/-- Whether a copy owns a line from which an access of a core, with its store number, must stay: the stores older than the copy
in its own core perform before the copy writes (R320, R321). -/
def State.ownedAgainst (s : State) (core seq line : Nat) : Bool :=
  s.copies.any (fun c => (c.lines.take c.owned).contains line && !(c.core == core && decide (seq < c.after)))

/-- Whether the home slice of a device line holds back an access: a copy owns the line (R320), or the host may hold it (R440). -/
def State.lineHeld (s : State) (core seq line : Nat) : Bool := s.ownedAgainst core seq line || s.hostHeld.contains line

/-- Whether a due entry can leave now: behind every older entry of its core for the same bytes, and a release wider than core
behind every older access of its core (R256, R259). -/
def State.mayPerform (s : State) (e : StoreEntry) : Bool :=
  !s.sbuf.any (fun f => f.core == e.core && decide (f.seq < e.seq) && (e.wide || f.meets e)) &&
    !(e.wide && s.sentUnperformed e.core e.seq) &&
    (away (dieOf e.core) e.key || !s.lineHeld e.core e.seq (lineOf e.key))

/-- The entries chosen by `p` are due, with those that must leave before them. -/
def markDue (p : StoreEntry → Bool) : List StoreEntry → List StoreEntry
  | [] => []
  | e :: es =>
    let r := markDue p es
    { e with due := e.due || p e || r.any (fun f => f.due && f.core == e.core && (f.wide || e.meets f)) } :: r

/-- An entry leaves, if it is due and can. -/
def State.pushEntry (s : State) (e : StoreEntry) : State :=
  if e.due && s.mayPerform e then
    ({ s with sbuf := s.sbuf.filter (fun f => !(f.core == e.core && f.seq == e.seq)) }).performEntry e
  else s

/-- Every due entry that can leaves its buffer, oldest first. -/
def State.pushDue (s : State) : State := s.sbuf.foldl State.pushEntry s

/-- The entries chosen by `p` perform, as soon as their homes let them. -/
def State.performWhere (s : State) (p : StoreEntry → Bool) : State := ({ s with sbuf := markDue p s.sbuf }).pushDue

/-- Every store-buffer entry of a core performs (R256, R259). -/
def State.drainCore (s : State) (core : Nat) : State := s.performWhere (fun e => e.core == core)

/-- The number of the next store of a core. -/
def State.storeNumber (s : State) (core : Nat) : Nat := s.sbufSeq.getD core 0

/-- A store enters the store buffer of its core and takes the next store number (R256). `rel` is the scope at which it is a
release, by its own ordering or by a fence before it. A store of a wider scope than core is sent on at once. -/
def State.storeGlobal (s : State) (from_ : Sender) (scope : Nat) (rel : Option Nat) (key : Nat) (data : List Byte) : State :=
  let seq := s.storeNumber from_.core
  let e : StoreEntry :=
    { from_ := from_, seq := seq, key := key, data := data, rel := rel,
      since := s.quireClk.getD (quireOf from_.core) 0 / 16, due := false }
  let s := { s with sbuf := s.sbuf ++ [e], sbufSeq := s.sbufSeq.setIfInBounds from_.core (seq + 1) }
  if scope = 0 then s else s.performWhere (fun f => f.core == from_.core && f.seq == seq)

/-- The bytes of a pending store of the core that a later access of the core must see (R220). -/
def State.messageByte (s : State) (core key : Nat) : Option Byte :=
  (s.flows.flatMap (fun f => f.held)).reverse.findSome? (fun m =>
    if m.core = core ∧ m.ordered = true ∧ m.performed = false ∧ m.key ≤ key ∧ key < m.key + m.data.length then m.data[key - m.key]?
    else none)

/-- The byte that an agent of a core reads: its core's youngest store not yet performed, else the home (R255). -/
def State.readByte (s : State) (core key : Nat) : Byte :=
  match s.sbuf.reverse.findSome? (fun e =>
      if e.core = core ∧ e.key ≤ key ∧ key < e.key + e.data.length then e.data[key - e.key]? else none) with
  | some b => b
  | none => (s.messageByte core key).getD (memRead s.mem key)

/-- `n` bytes that an agent of a core reads from a key. -/
def State.readGlobal (s : State) (core key n : Nat) : List Byte := (List.range n).map (fun i => s.readByte core (key + i))

end Sys2Proof.Machine
end

