-- ==== Sys2Proof/Machine/Objects.lean ====
section
/-! DEFINITION. Finding and replacing the objects of the state: warps, fragments, groups, grids, contexts. -/

namespace Sys2Proof.Machine

/-- The list with every element of key `k` replaced. -/
def replaceBy {α : Type} (key : α → Nat) (a : α) (l : List α) : List α :=
  l.map (fun b => if key b = key a then a else b)

/-- The first element of key `k`. -/
def findKey {α : Type} (key : α → Nat) (k : Nat) (l : List α) : Option α := l.find? (fun a => key a == k)

def State.warp? (s : State) (uid : Nat) : Option Warp := findKey Warp.uid uid s.warps
def State.setWarp (s : State) (w : Warp) : State := { s with warps := replaceBy Warp.uid w s.warps }

def Warp.frag? (w : Warp) (id : Nat) : Option Frag := findKey Frag.id id w.frags
def Warp.setFrag (w : Warp) (f : Frag) : Warp := { w with frags := replaceBy Frag.id f w.frags }

def State.group? (s : State) (uid : Nat) : Option Group := findKey Group.uid uid s.groups
def State.setGroup (s : State) (g : Group) : State := { s with groups := replaceBy Group.uid g s.groups }

def State.grid? (s : State) (uid : Nat) : Option Grid := findKey Grid.uid uid s.grids
def State.setGrid (s : State) (g : Grid) : State := { s with grids := replaceBy Grid.uid g s.grids }

/-- A context's slot on the device: 64 slots in each partition (R389). -/
def Ctx.key (c : Ctx) : Nat := c.part * 64 + c.slot

def State.ctx? (s : State) (part slot : Nat) : Option Ctx := s.ctxs.find? (fun c => c.part == part && c.slot == slot)
def State.setCtx (s : State) (c : Ctx) : State := { s with ctxs := replaceBy Ctx.key c s.ctxs }

def State.copy? (s : State) (uid : Nat) : Option Copy := findKey Copy.uid uid s.copies
def State.setCopy (s : State) (c : Copy) : State := { s with copies := replaceBy Copy.uid c s.copies }

/-- The context of a group. -/
def State.ctxOf (s : State) (g : Group) : Option Ctx := s.ctx? g.part g.ctx

/-- The kernel-table entry of a partition and identifier. -/
def State.kernel? (s : State) (part kid : Nat) : Option KernelEntry :=
  s.kernels.find? (fun k => k.part == part && k.kid == kid)

/-- A submission queue of a context. -/
def Ctx.queue? (c : Ctx) (n : Nat) : Option SubQueue := findKey SubQueue.n n c.queues
def Ctx.setQueue (c : Ctx) (q : SubQueue) : Ctx := { c with queues := replaceBy SubQueue.n q c.queues }

/-- The warps of a group that have not exited (R102). -/
def State.warpsOf (s : State) (g : Group) : List Warp := s.warps.filter (fun w => w.group == g.uid)

/-- The number of a role (R105). -/
def roleNat (r : Role) : Nat :=
  match r with
  | .copy => 0 | .maths => 1 | .epilogue => 2

/-- The role of a number (R105). -/
def roleOfNat (n : Nat) : Role :=
  match n with
  | 0 => .copy | 1 => .maths | _ => .epilogue

/-- The number of a scheduling mode (R115). -/
def modeNat (m : Mode) : Nat :=
  match m with
  | .trusting => 0 | .checking => 1 | .interlocked => 2

/-- The core of a span position. -/
def Group.coreAt (g : Group) (pos : Nat) : Nat := ((g.places[pos]?).map Place.core).getD 0

/-- Cores in the span (R115). -/
def Group.span (g : Group) : Nat := g.places.length

/-- A span position changed. -/
def Group.setPlace (g : Group) (pos : Nat) (p : Place) : Group := { g with places := setAt g.places pos p }

/-- The scratchpad bytes of a span position (R229). -/
def Group.spadAt (g : Group) (pos : Nat) : List Host.Cell := ((g.places[pos]?).map Place.spad).getD []
def Group.setSpad (g : Group) (pos : Nat) (m : List Host.Cell) : Group :=
  match g.places[pos]? with
  | some p => g.setPlace pos { p with spad := m }
  | none => g

/-- The tile-store bytes of a span position (R275). -/
def Group.tilesAt (g : Group) (pos : Nat) : List Host.Cell := ((g.places[pos]?).map Place.tiles).getD []
def Group.setTiles (g : Group) (pos : Nat) (m : List Host.Cell) : Group :=
  match g.places[pos]? with
  | some p => g.setPlace pos { p with tiles := m }
  | none => g

/-- The core clocks of a quire since reset: its clock advances by `clkStep` sixteenths of a nominal clock (R459). -/
def State.quireClock (s : State) (q : Nat) : Nat := s.quireClk.getD q 0 / 16

/-- The core clocks of a core since reset (R408). -/
def State.clock (s : State) (core : Nat) : Nat := s.quireClock (quireOf core)

/-- The device time in nanoseconds since reset, 10/27 ns for each nominal clock of 2.7 GHz (R19, R408). -/
def State.nanos (s : State) : Nat := s.ticks * 10 / 27

/-- A program counter that a table or a descriptor gives: a program counter always holds a multiple of 4 (R35), and neither R161 nor
R417 gives a check, so the two low bits are taken as zero (log entry 70). -/
def codeAddress (x : Nat) : Dword := BitVec.ofNat 64 (x / 4 * 4)

/-- Whether `us` microseconds have passed since a tick (2700 nominal clocks each). -/
def State.olderThan (s : State) (since us : Nat) : Bool := decide (since + us * 2700 < s.ticks)

/-- The next number of the model's own. -/
def State.takeFresh (s : State) : Nat × State := (s.fresh, { s with fresh := s.fresh + 1 })

/-- A latched feature bit (R455). -/
def State.feature (s : State) (n : Nat) : Bool := s.flatch.getLsbD n

/-- The stack of a count of a housekeeping counter, which saturates (R460). -/
def satInc (w : Word) : Word := if w = 0xFFFFFFFF then w else w + 1

/-- A virtual address has 57 bits (R23). -/
def vaMask (x : Nat) : Nat := x % 2 ^ 57

/-! ### New objects -/

/-- A fragment that is about to issue at a program counter, with empty stacks (R161). -/
def Frag.fresh (id : Nat) (record : Option Nat) (lanes : Word) (pc : Dword) : Frag :=
  { id := id, record := record, lanes := lanes, pc := pc, head := pc, chain := [], skip := pc, ret := [], conv := [],
    cover := [], stallTill := 0, restTill := 0, yielded := false, readyFor := 0, promoted := none, passed := none, wait := .none,
    granted := false, denied := 0, arrived := none, latch := none, bytes := [] }

/-- A warp as it starts (R103): registers zero, no vector name mapped, one fragment of all lanes, or one stream. -/
def Warp.fresh (uid group : Nat) (role : Role) (index core slot pos : Nat) (mode : Mode) (age budget : Nat) (pc : Dword) :
    Warp :=
  { uid := uid, group := group, role := role, index := index, core := core, slot := slot, pos := pos, mode := mode,
    started := false, age := age, s := Vector.replicate 64 0, c := 0, k := Vector.replicate 8 0,
    d := Vector.replicate 16 0, v := [], budget := (if role = .epilogue then budget else 0), fpflags := 0, srctr := 0,
    mark := 0, markOld := 0, markAt := none, slots := Vector.replicate 16 Slot.none,
    frags := [if role = .epilogue then Frag.fresh 0 (some 0) 0xFFFFFFFF pc else Frag.fresh 0 none 1 pc],
    nextFrag := 1, wpar := 0, la := Vector.replicate 16 0, pending := 0, locks := [], fenced := Vector.replicate 5 0, inflight := [] }

/-- A context as CREATE leaves it (R390, R395): registers at their creation values, every writable format entry Unset. -/
def Ctx.created (part slot : Nat) (arg : Word) : Ctx :=
  { part := part, slot := slot, state := .created, saving := false, ctxid := arg, cfg := 0, srseed := 0, evth := 20,
    pdl := 2000, rwth := 5, ptroot := 0, savebase := 0, savesize := 0, fqbase := 0, fqsize := 0, fqhead := 0,
    fqtail := 0, fqsig := 0, prqbase := 0, prqsize := 0, prqhead := 0, prqtail := 0, fmt := Vector.replicate 10 0,
    updating := [], futures := [], heldFaults := [], heldRequests := [], countedFaults := 0, countedRequests := 0, live := [], answers := [], seq := 0, gridn := 0,
    queues := [], placed := [], saveFull := false, adds := [] }

/-- A kernel descriptor with nothing declared. -/
def KernelDesc.empty : KernelDesc :=
  { itabn := 0, entry := [0, 0, 0], attach := [0, 0, 0], warps := [(0, 0), (0, 0), (0, 0)], span := 1, budget := 1,
    rf := 1, sp := 0, ts := 0, args := 0, grid := (1, 1, 1), queues := [], bars := [], tiles := [], fmtm := 0, fmtw := [] }

end Sys2Proof.Machine
end

