-- ==== Sys2Proof/Machine/Translate.lean ====
section
/-! DEFINITION. Page-table walks, the translation caches and the access tables (R236 to R242, R392, R439). -/

namespace Sys2Proof.Machine

/-- The master of an access (R392): partition, context slot and engine, with the core that sends it (`headbox` is engine
3 on the first core of its die). -/
structure Master where
  part : Nat
  slot : Nat
  eng  : Nat
  core : Nat
  deriving DecidableEq, Repr

/-- What an access does to a page (R241). -/
inductive Access where
  | read | write | fetch
  deriving DecidableEq, Repr

/-! ### Access tables (R392) -/

/-- Whether an entry matches a master, covers the units `u` to `v` and grants the right. -/
def accMatches (e : BitVec 128) (m : Master) (u v : Nat) (write : Bool) : Bool :=
  let x := e.toNat
  let base := field x 16 56
  let lim := field x 72 56
  x.testBit 15 && field x 12 3 == m.part && (x.testBit 5 || field x 6 6 == m.slot) &&
    (x.testBit 2 || field x 3 2 == m.eng) && decide (base ≤ lim) && decide (base ≤ u) && decide (v ≤ lim) &&
    x.testBit (if write then 1 else 0)

/-- The widest unit of a target's window: frames, peer numbers or mailbox numbers. -/
def accUnitBits (target : Nat) : Nat := if target < 72 then 45 else if target < 84 then 10 else 8

/-- Whether an entry's BASE and LIM lie within the units of its target; an entry beyond them matches no access. -/
def accInRange (target : Nat) (e : BitVec 128) : Bool :=
  field e.toNat 16 56 < 2 ^ accUnitBits target && field e.toNat 72 56 < 2 ^ accUnitBits target

/-- Whether the table of a target allows an access to the units `u` to `v`. -/
def State.accCovers (s : State) (target : Nat) (m : Master) (u v : Nat) (write : Bool) : Bool :=
  s.acc.any (fun a => a.target == target && accInRange target a.word && accMatches a.word m u v write)

/-- Whether the table of a target allows an access to one unit. -/
def State.accAllows (s : State) (target : Nat) (m : Master) (u : Nat) (write : Bool) : Bool := s.accCovers target m u u write

/-- The home slice of a device key (R14); the spread is `Config.sliceHash` (log entry 6). -/
def homeSlice (key : Nat) : Nat := 32 * dieOfKey key + Config.sliceHash (lineOf key) % 32

/-- Whether the home slice and, when the L2 does not hold the line, its HBM controller allow an access to a device
frame. The home slice is looked up only where the slices of the die differ (log entries 6 and 7). -/
def State.deviceAllows (s : State) (m : Master) (key : Nat) (write : Bool) : Bool :=
  let u := key / 4096
  let die := dieOfKey key
  let slices := (List.range 32).map (fun i => s.accAllows (32 * die + i) m u write)
  let slice :=
    if slices.all id then true
    else if slices.any id then s.accAllows (homeSlice key) m u write
    else false
  let shared := (List.range 4).map (fun i => s.accAllows (64 + 4 * die + i) m u write)
  let stack :=
    if shared.all id then true
    else Config.l2Holds s.draws (lineOf key) || s.accAllows (64 + homeSlice key / 8) m u write
  slice && stack

/-- Whether the tables allow the device's own accesses to a run of device memory, one for each line (R392, R397). -/
def State.rangeAllows (s : State) (m : Master) (key n : Nat) (write : Bool) : Bool :=
  (List.range ((key + n - 1) / 128 + 1 - key / 128)).all (fun i => s.deviceAllows m (max key (128 * (key / 128 + i))) write)

/-- Peer-table entry `n` (R439). -/
def State.peer (s : State) (n : Nat) : BitVec 16 := (s.peers.find? (fun p => p.1 == n)).elim 0 Prod.snd

/-- A link that carries traffic (R436). -/
def Link.carries (l : Link) : Bool := l.state == .up || l.state == .degraded

/-- Whether a link carries traffic, and whether a port does for a die: the other die's ports are reached over link 0 (R439). -/
def State.linkUp (s : State) (n : Nat) : Bool := (s.links[n]?).elim false Link.carries
def State.portUp (s : State) (die p : Nat) : Bool := s.linkUp (p + 1) && (p / 6 == die || s.linkUp 0)

/-- The ports by which a die's flow may reach a peer, its own die's first (R439). -/
def State.portsTo (s : State) (die n : Nat) : List Nat :=
  let e := s.peer n
  let all := (List.range 12).filter (fun p => e.getLsbD p)
  if e.getLsbD 15 then all.filter (fun p => p / 6 == die) ++ all.filter (fun p => p / 6 != die) else []

/-- The link by which a die reaches a memory away from it: link 0 for the other die; link 13, on die 0, for the host; for a peer a
port that carries traffic, its own die's first (R436, R439, R440). None while there is no path. -/
def State.pathTo (s : State) (die : Nat) (target : Home) : Option Nat :=
  match target with
  | .device => if s.linkUp 0 then some 0 else none
  | .host => if s.linkUp 13 && (die == 0 || s.linkUp 0) then some 13 else none
  | .peer n => ((s.portsTo die n).find? (s.portUp die)).map (fun p => p + 1)

/-- The links that a message crosses on its way to a link: link 0 first when that link is on the other die (R18, R439). -/
def linksVia (die link : Nat) : List Nat :=
  if link = 0 then [0]
  else if (if link = 13 then 0 else (link - 1) / 6) = die then [link] else [0, link]

/-- Whether a path to a memory away from a die carries traffic, and whether every one is Down (R441). -/
def State.reachable (s : State) (die key : Nat) : Bool := !away die key || (s.pathTo die (homeOf key)).isSome

def State.linkDown (s : State) (n : Nat) : Bool := (s.links[n]?).elim true (fun l => l.state == .down)

def State.pathsDown (s : State) (die : Nat) (target : Home) : Bool :=
  match target with
  | .device => s.linkDown 0
  | .host => s.linkDown 13 || (die != 0 && s.linkDown 0)
  | .peer n => (s.portsTo die n).all (fun p => s.linkDown (p + 1) || (p / 6 != die && s.linkDown 0))

/-- The send permits of a class that a die holds on a link: of link 0 each die has its own, and the other links' are of the device
(R442). -/
def Link.held (l : Link) (n die cls : Nat) : Nat := (if n = 0 ∧ die ≠ 0 then l.far else l.permits).getD cls 0

/-- Permits of a class on a link changed. -/
def Link.setHeld (l : Link) (n die cls x : Nat) : Link :=
  if n = 0 ∧ die ≠ 0 then { l with far := l.far.setIfInBounds cls x } else { l with permits := l.permits.setIfInBounds cls x }

def State.permitted (s : State) (die cls n : Nat) : Bool := (s.links[n]?).elim false (fun l => decide (0 < l.held n die cls))

/-- Permits spent on a link (R442). -/
def State.spend (s : State) (die cls k n : Nat) : State :=
  match s.links[n]? with
  | some l => { s with links := s.links.setIfInBounds n (l.setHeld n die cls (l.held n die cls - k)) }
  | none => s

/-- The permits that the far side of a link holds toward a die: of link 0 they are the other die's (R442). -/
def Link.heldFar (l : Link) (n die cls : Nat) : Nat := if n = 0 then l.held 0 (1 - die) cls else l.far.getD cls 0

def Link.setHeldFar (l : Link) (n die cls x : Nat) : Link :=
  if n = 0 then l.setHeld 0 (1 - die) cls x else { l with far := l.far.setIfInBounds cls x }

def State.permittedBack (s : State) (die cls n : Nat) : Bool := (s.links[n]?).elim false (fun l => decide (0 < l.heldFar n die cls))

/-- A permit of the far side spent: by a reply, an acknowledgement, or an access of the host or a peer (R442). -/
def State.spendBack (s : State) (die cls n : Nat) : State :=
  match s.links[n]? with
  | some l => { s with links := s.links.setIfInBounds n (l.setHeldFar n die cls (l.heldFar n die cls - 1)) }
  | none => s

/-- Whether what comes back to a die from a key can cross now: a path carries traffic, and the far side has a permit on every link of it
(R436, R442). -/
def State.mayReturn (s : State) (die cls key : Nat) : Bool :=
  !away die key || (s.pathTo die (homeOf key)).elim false (fun l => (linksVia die l).all (s.permittedBack die cls))

def State.returns (s : State) (die cls key : Nat) : State :=
  if away die key = false then s
  else match s.pathTo die (homeOf key) with
    | none => s
    | some l => (linksVia die l).foldl (fun s n => s.spendBack die cls n) s

/-- Whether a message from a die can cross toward a key now: a path carries traffic, every link of it has a permit (R436, R442), and
the flow has not reached its limit (R441). -/
def State.mayCross (s : State) (die cls key : Nat) : Bool :=
  !away die key ||
    ((s.pathTo die (homeOf key)).elim false (fun l => (linksVia die l).all (s.permitted die cls)) &&
      decide ((s.flowFor die cls (homeOf key)).held.length < flowLimit))

/-- Whether it can cross within this step: classes 1 and 3 arrive in sequence, behind the flow's earlier messages (R273). -/
def State.crosses (s : State) (die cls key : Nat) : Bool :=
  s.mayCross die cls key &&
    (!away die key || cls % 2 == 0 || (s.flowFor die cls (homeOf key)).held.all Message.delivered)

/-- A message that crosses and is delivered within one step: it takes its sequence number and its permits, and its sender holds it until
it is acknowledged (R441, R442; log entry 84). -/
def State.cross (s : State) (from_ : Sender) (cls key : Nat) : State :=
  let die := dieOf from_.core
  if away die key = false then s
  else match s.pathTo die (homeOf key) with
    | none => s
    | some l =>
      ((linksVia die l).foldl (fun s n => s.spend die cls 1 n) s).sendAs true cls from_ 0 key [] .notice

/-- Whether a message can cross with its answer within this step (R441, R442). -/
def State.exchanges (s : State) (die cls key : Nat) : Bool := s.crosses die cls key && s.mayReturn die cls key

/-- A message that crosses with its answer. -/
def State.exchange (s : State) (from_ : Sender) (cls key : Nat) : State := (s.cross from_ cls key).returns (dieOf from_.core) cls key

/-- Whether the home of a line holds it back until the host's response (R440). -/
def State.snooped (s : State) (key : Nat) : Bool := decide (key < spaceSize) && s.hostHeld.contains (lineOf key)

/-- Whether an access that the device makes of itself, in a class, reaches its home at once: it can cross, and a read's response back
(R436, R442), and the host does not hold the line (R440). -/
def State.reaches (s : State) (die cls key : Nat) : Bool :=
  s.mayCross die cls key && (cls != 0 || s.mayReturn die 0 key) && !s.snooped key

/-- Reads that cross with their responses within one step, one message and one response for each; none when some has no permit left
(R273, R442). -/
def State.crossReads (s : State) (from_ : Sender) (keys : List Nat) : Option State :=
  keys.foldl (fun s key =>
    s.bind (fun s => if s.exchanges (dieOf from_.core) 0 key then some (s.exchange from_ 0 key) else none)) (some s)

/-- Messages that come back to a die, one for each key; none when some has no permit left (R442). -/
def State.allReturn (s : State) (die cls : Nat) (keys : List Nat) : Option State :=
  keys.foldl (fun s key => s.bind (fun s => if s.mayReturn die cls key then some (s.returns die cls key) else none)) (some s)

/-- Whether the tables that an access to a key reaches allow it (R392, R439). Host memory has no table. A peer access
is checked at a port that carries it, or at its first port while none does. -/
def State.allows (s : State) (m : Master) (key : Nat) (write : Bool) : Bool :=
  match homeOf key with
  | .device => s.deviceAllows m key write
  | .host => true
  | .peer n =>
    let ports := s.portsTo (dieOf m.core) n
    let live := ports.filter (s.portUp (dieOf m.core))
    match (if live.isEmpty then ports else live) with
    | [] => false
    | p :: _ => s.accAllows (72 + p) m n write

/-! ### Page-table entries (R237, R238) -/

/-- What a walk finds. -/
inductive Walk where
  | leaf (pte : Dword) (base size : Nat)
  | nonResident
  | unmapped
  | malformed
  /-- A table entry that the access tables refuse to the master (R392; log entry 83). -/
  | refused
  /-- A table entry that no path reaches, or whose line the host may hold, by its key (R436, R440). -/
  | stalled (key : Nat)
  /-- A table outside device memory, which only `PTROOT` can name. -/
  | nowhere
  deriving DecidableEq, Repr

def pteLoc (e : Nat) : Nat := field e 6 2
def pteFrame (e : Nat) : Nat := field e 12 40 * 4096

/-- The bytes that a leaf of a level maps; CONT maps 16 or 64 entries as one page (R236). -/
def leafSize (level : Nat) (cont : Bool) : Nat :=
  match level with
  | 0 => if cont then 65536 else 4096
  | 1 => 2 ^ 21
  | _ => if cont then 2 ^ 36 else 2 ^ 30

/-- A valid entry that breaks R238 at a level. -/
def pteMalformed (e level : Nat) : Bool :=
  let leaf := e.testBit 2
  let cont := e.testBit 5
  let size := if leaf then leafSize level cont else 4096
  let pa := pteFrame e / size * size
  field e 62 2 != 0 || field e 9 3 != 0 || pteLoc e == 3 || (field e 52 10 != 0 && pteLoc e != 2) ||
    (leaf && decide (3 ≤ level)) || (!leaf && level == 0) || (cont && level == 1) ||
    (!leaf && (pteLoc e != 0 || e.testBit 3 || e.testBit 4 || cont || e.testBit 8)) ||
    (pteLoc e == 0 && decide (deviceBytes < pa + size))

/-- A valid entry that is malformed on this device: one that names peer or host memory while that feature is masked is too
(R455). -/
def State.pteBad (s : State) (e level : Nat) : Bool :=
  pteMalformed e level || (pteLoc e == 2 && !s.feature 0) || (pteLoc e == 1 && !s.feature 1)

/-- The entry used of a CONT group (R239): its own when the group's entries are equal, and a free choice otherwise. -/
def State.contEntry (s : State) (table idx n : Nat) : Nat :=
  let first := idx / n * n
  let own := memNat s.mem (table + 8 * idx) 8
  if (List.range n).all (fun i => memNat s.mem (table + 8 * (first + i)) 8 == own) then own
  else memNat s.mem (table + 8 * (first + (Config.freeWord s.draws (table + idx)).toNat % n)) 8

/-- The entry of a table of a level that a walk for an address uses. -/
def State.pteOf (s : State) (va level table : Nat) : Nat :=
  let idx := va / 2 ^ (12 + 9 * level) % 512
  let own := memNat s.mem (table + 8 * idx) 8
  if own.testBit 0 && own.testBit 5 && own.testBit 2 then
    (if level = 0 then s.contEntry table idx 16 else if level = 2 then s.contEntry table idx 64 else own)
  else own

/-- The walk of a master from a table of a level (R236, R241). Each entry is a read that the access tables check and that reaches
its home over the links. -/
def State.walkFrom (s : State) (m : Master) (va : Nat) : Nat → Nat → Walk
  | level, table =>
    let key := table + 8 * (va / 2 ^ (12 + 9 * level) % 512)
    if deviceBytes ≤ table then .nowhere
    else if s.deviceAllows m key false = false then .refused
    else if s.reaches (dieOf m.core) 0 key = false then .stalled key
    else
      let e := s.pteOf va level table
      if e.testBit 0 = false then (if e.testBit 1 then .nonResident else .unmapped)
      else if s.pteBad e level then .malformed
      else if e.testBit 2 then
        let size := leafSize level (e.testBit 5)
        .leaf (BitVec.ofNat 64 e) (va / size * size) size
      else match level with
        | 0 => .malformed
        | level + 1 => s.walkFrom m va level (pteFrame e)

/-- The walk of a context's page table from its root (R236). -/
def State.walk (s : State) (m : Master) (c : Ctx) (va : Nat) : Walk := s.walkFrom m va 4 c.ptroot.toNat

/-- The valid entries on a walk from a table of a level, as a translation cache keeps them (R242). -/
def State.trailFrom (s : State) (va : Nat) : Nat → Nat → List (Nat × Nat)
  | level, table =>
    let e := s.pteOf va level table
    if deviceBytes ≤ table ∨ e.testBit 0 = false ∨ s.pteBad e level = true then []
    else if e.testBit 2 then [(level, e)]
    else match level with
      | 0 => []
      | n + 1 => (level, e) :: s.trailFrom va n (pteFrame e)

/-- Whether a cached translation of a context covers an address. -/
def TlbEntry.covers (t : TlbEntry) (part slot va : Nat) : Bool :=
  t.part == part && t.slot == slot && decide (t.base ≤ va) && decide (va < t.base + t.size)

/-- A translation cache discards what it holds for an address. -/
def State.uncache (s : State) (part slot va : Nat) : State := { s with tlb := s.tlb.filter (fun t => !t.covers part slot va) }

/-- Whether a cached translation is a leaf, not a table pointer. -/
def TlbEntry.isLeaf (t : TlbEntry) : Bool := t.pte.toNat.testBit 2

/-- The cached leaf that covers an address, and the cached table pointer of the lowest level (R242). -/
def State.cached (s : State) (c : Ctx) (va : Nat) : Option TlbEntry := s.tlb.find? (fun t => t.covers c.part c.slot va && t.isLeaf)

def State.cachedTable (s : State) (c : Ctx) (va : Nat) : Option TlbEntry :=
  (List.range 5).findSome? (fun l => s.tlb.find? (fun t => t.covers c.part c.slot va && !t.isLeaf && t.level == l))

/-- The walk from the cached table pointer of the lowest level, or from the root (R242). -/
def State.walkCached (s : State) (m : Master) (c : Ctx) (va : Nat) : Walk :=
  match s.cachedTable c va with
  | some t => if t.level = 0 then s.walk m c va else s.walkFrom m va (t.level - 1) (pteFrame t.pte.toNat)
  | none => s.walk m c va

/-- Whether a leaf permits an access (R237). -/
def pteAllows (e : Nat) (k : Access) : Bool :=
  match k with
  | .read => true
  | .write => e.testBit 3
  | .fetch => e.testBit 4

/-- A walk that permits an access. -/
def Walk.permits (w : Walk) (k : Access) : Bool :=
  match w with
  | .leaf pte _ _ => pteAllows pte.toNat k
  | _ => false

/-- What an access finds: a cached leaf that permits it, else a walk; a denied store, atomic or fetch goes by a walk from the root
(R241). -/
def State.lookup (s : State) (m : Master) (c : Ctx) (k : Access) (va : Nat) : Walk :=
  match s.cached c va with
  | some t => if pteAllows t.pte.toNat k then .leaf t.pte t.base t.size else s.walk m c va
  | none =>
    let w := s.walkCached m c va
    if k = .read ∨ w.permits k = true then w else s.walk m c va

/-- The table entries, by key, that a walk from a table of a level reads. -/
def State.walkKeys (s : State) (va : Nat) : Nat → Nat → List Nat
  | level, table =>
    let key := table + 8 * (va / 2 ^ (12 + 9 * level) % 512)
    let e := s.pteOf va level table
    if deviceBytes ≤ table then []
    else if e.testBit 0 = false ∨ e.testBit 2 = true then [key]
    else match level with
      | 0 => [key]
      | n + 1 => key :: s.walkKeys va n (pteFrame e)

/-- The table entries that `lookup` reads. -/
def State.lookupKeys (s : State) (m : Master) (c : Ctx) (k : Access) (va : Nat) : List Nat :=
  let root := s.walkKeys va 4 c.ptroot.toNat
  match s.cached c va, s.cachedTable c va with
  | some t, _ => if pteAllows t.pte.toNat k then [] else root
  | none, none => root
  | none, some t =>
    (if t.level = 0 then root else s.walkKeys va (t.level - 1) (pteFrame t.pte.toNat)) ++
      (if k = .read ∨ (s.walkCached m c va).permits k = true then [] else root)

/-- The table entries that the walks for some addresses read, one walk for each page (R236). -/
def State.walksKeys (s : State) (m : Master) (c : Ctx) (k : Access) (vas : List Nat) : List Nat :=
  (distinct (vas.map (fun va => va / 4096 * 4096))).flatMap (s.lookupKeys m c k)

/-- A denied access discards the cached translations that denied it (R241). -/
def State.discardDenied (s : State) (m : Master) (c : Ctx) (k : Access) (va : Nat) : State :=
  let bad : Bool := match s.cached c va with
    | some t => !pteAllows t.pte.toNat k
    | none => k != .read && (s.cachedTable c va).isSome && !(s.walkCached m c va).permits k
  if bad = true then { s with tlb := s.tlb.filter (fun t => !t.covers c.part c.slot va) } else s

/-- The key of an address through a leaf. -/
def leafKey (pte : Dword) (base size va : Nat) : Nat :=
  let e := pte.toNat
  let pa := pteFrame e / size * size + (va - base)
  match pteLoc e with
  | 0 => Home.key .device pa
  | 1 => Home.key .host pa
  | _ => Home.key (.peer (field e 52 10)) pa

/-- A translated access. -/
inductive Xlat where
  | ok (key : Nat)
  /-- The access waits on the pager; `mig`: a write met a migrating page (R241). -/
  | waits (mig : Bool)
  | prot (cause : Nat)
  /-- The walk waits for an entry of the page table (R436, R440). -/
  | stalled (key : Nat)
  | nowhere
  deriving DecidableEq, Repr

/-- Whether what the driver writes reaches the device: its firmware runs, and link 13 carries the windows (R436, R440, R457; log entry
108). -/
def State.driverReaches (s : State) : Bool := s.firmware.verified && s.linkUp 13

/-- Whether the headbox of die 0 can direct what happens on a die, in class 3 of link 0 (R13; log entry 107), and the message. -/
def State.mayDirect (s : State) (die : Nat) : Bool := s.crosses 0 3 (dieKey die)
def State.direct (s : State) (die : Nat) : State := s.cross (Sender.ofDie 0 6 0) 3 (dieKey die)

/-- The translation of an address without the access tables of its target (R241). -/
def State.translateOnly (s : State) (m : Master) (c : Ctx) (k : Access) (va : Nat) : Xlat :=
  match s.lookup m c k va with
  | .leaf pte base size =>
    if pteAllows pte.toNat k then .ok (leafKey pte base size va)
    else match k with
      | .fetch => .prot 2
      | _ => if pte.toNat.testBit 8 then .waits true else .prot 1
  | .nonResident => .waits false
  | .unmapped => .prot 0
  | .malformed => .prot 4
  | .refused => .prot 6
  | .stalled key => .stalled key
  | .nowhere => .nowhere

/-- The translation of an access of a master, with the tables of its target (R241, R392). -/
def State.translate (s : State) (m : Master) (c : Ctx) (k : Access) (va : Nat) : Xlat :=
  match s.translateOnly m c k va with
  | .ok key => if s.allows m key (k == .write) then .ok key else .prot 6
  | x => x

/-- The headbox of a die as the master of the accesses that it makes for a context (R13, R392), and that of die 0. -/
def Ctx.headboxOf (c : Ctx) (die : Nat) : Master := { part := c.part, slot := c.slot, eng := 3, core := 24 * die }
def Ctx.headbox (c : Ctx) : Master := c.headboxOf 0

/-- The class of an access that a headbox makes: reads, and the writes of its queues and signals (R273; log entry 84). -/
def Access.headboxClass : Access → Nat
  | .write => 3
  | _ => 0

/-- The reads that a headbox's access sends: its walk's, and its own (R236, R273). -/
def State.headboxReads (s : State) (c : Ctx) (k : Access) (va key : Nat) : Option State :=
  s.crossReads (Sender.ofDie 0 c.part c.slot) (s.walksKeys c.headbox c k [va] ++ if k = .write then [] else [key])

/-- The translation of an access that a headbox makes for a context; it stalls while its home is out of reach (R436, R440, R442). -/
def State.headboxXlat (s : State) (c : Ctx) (k : Access) (va : Nat) : Xlat :=
  match s.translate c.headbox c k va with
  | .ok key => if s.reaches 0 k.headboxClass key && (s.headboxReads c k va key).isSome then .ok key else .stalled key
  | x => x

/-- What a headbox's access leaves: its reads cross to their homes, and a write forgets what denied it (R241, R273). -/
def State.headboxWalk (s : State) (c : Ctx) (k : Access) (va key : Nat) : State :=
  let s := (s.headboxReads c k va key).getD s
  if k = .write then s.discardDenied c.headbox c k va else s

/-- The key of a resident, permitted address for the device's own queue writes (R492); none to hold the entry back. -/
def State.headboxKey (s : State) (c : Ctx) (k : Access) (va : Nat) : Option Nat :=
  match s.headboxXlat c k va with
  | .ok key => some key
  | _ => none

end Sys2Proof.Machine
end

