-- ==== Sys2Proof/Machine/Ops.lean ====
section
/-! DEFINITION. The named operations: registers, pager futures, the device's queues of records and requests, completion
signals, and taking an exception (R167, R398 to R402) with the return from one beside it. -/

namespace Sys2Proof.Machine

/-! ### Registers (R114) -/

def Warp.getS (w : Warp) (n : Nat) : Word := w.s.getD n 0
def Warp.setS (w : Warp) (n : Nat) (x : Word) : Warp := { w with s := w.s.setIfInBounds n x }

/-- An even-odd pair of scalars, the even register low (R2). -/
def Warp.getPair (w : Warp) (n : Nat) : Dword := pairOf (w.getS n) (w.getS (n + 1))
def Warp.setPair (w : Warp) (n : Nat) (x : Dword) : Warp := (w.setS n (lowHalf x)).setS (n + 1) (highHalf x)

/-- Mask registers: `k0` reads all ones and discards writes (R114). -/
def Warp.getK (w : Warp) (n : Nat) : Word := if n = 0 then 0xFFFFFFFF else w.k.getD n 0
def Warp.setK (w : Warp) (n : Nat) (x : Word) : Warp := if n = 0 then w else { w with k := w.k.setIfInBounds n x }

def Warp.getC (w : Warp) (n : Nat) : Bool := w.c.getLsbD n
def Warp.setC (w : Warp) (n : Nat) (x : Bool) : Warp :=
  { w with c := maskUpTo (fun i => if i = n then x else w.c.getLsbD i) 8 }

def Warp.getD (w : Warp) (n : Nat) : BitVec 128 := w.d.getD n 0
def Warp.setD (w : Warp) (n : Nat) (x : BitVec 128) : Warp := { w with d := w.d.setIfInBounds n x }

def zeroLanes : Lanes := perLane (fun _ => 0)

/-- A vector name; an unmapped one reads zero (R114, R116). -/
def Warp.getV (w : Warp) (n : Nat) : Lanes := ((w.v.find? (fun p => p.1 == n)).map Prod.snd).getD zeroLanes

def Warp.mapped (w : Warp) (n : Nat) : Bool := w.v.any (fun p => p.1 == n)

/-- The name maps to a register that holds these lanes (R116). -/
def Warp.putV (w : Warp) (n : Nat) (x : Lanes) : Warp := { w with v := insertBy Prod.fst (n, x) w.v }

/-- The name becomes unmapped (R117). -/
def Warp.unmapV (w : Warp) (n : Nat) : Warp := { w with v := w.v.filter (fun p => p.1 != n) }

/-- A write in the lanes of a mask: the other lanes keep their values, zero when the name was unmapped (R116). -/
def Warp.writeV (w : Warp) (n : Nat) (m : Word) (x : Lanes) : Warp := w.putV n (mergeLanes m x (w.getV n))

/-- Registers held: the mapped names (R118). -/
def Warp.held (w : Warp) : Nat := w.v.length

/-- The names for which registers are set aside (R119, R122). -/
def Warp.aside (w : Warp) : List Nat := w.frags.flatMap (fun f => (f.latch.map Latch.room).getD [])

/-- The registers that a warp holds or is to hold: of the mapped names, of those set aside, and of others that a write needs. Each
name counts once (R118, R119). -/
def Warp.heldWith (w : Warp) (names : List Nat) : Nat :=
  w.held + ((distinct (w.aside ++ names)).filter (fun n => !w.mapped n)).length

/-- Every bit or lane of a register. -/
def allBits : Word := 0xFFFFFFFF

/-- A register with the bits or lanes of a mask as another copy of the warp holds them. -/
def Warp.copyReg (w from_ : Warp) (r : Reg) (m : Word) : Warp :=
  match r with
  | .s n => w.setS n (from_.getS n)
  | .k n => w.setK n ((from_.getK n &&& m) ||| (w.getK n &&& ~~~m))
  | .c n => w.setC n (from_.getC n)
  | .d n => w.setD n (from_.getD n)
  | .v n => if from_.mapped n || m != allBits then w.putV n (mergeLanes m (from_.getV n) (w.getV n)) else w.unmapV n

/-- The warp after the writes of an instruction that issued and waited: the bits and lanes that instructions issued later have
written keep what those wrote (R113, R190). -/
def Warp.landing (f : Frag) (before after : Warp) : Warp :=
  ((f.latch.map Latch.lost).getD []).foldl (fun w r => w.copyReg before r.1 r.2) after

def Warp.orFlags (w : Warp) (f : FpFlags) : Warp := { w with fpflags := w.fpflags ||| f }

/-! ### Fragments (R112) -/

/-- The record numbers in use. -/
def Warp.usedRecords (w : Warp) : List Nat := w.frags.filterMap Frag.record

/-- The lowest free record. -/
def Warp.freeRecord (w : Warp) : Option Nat := (List.range 8).find? (fun r => !w.usedRecords.contains r)

/-- A queued fragment: no record, and not held at a convergence entry. -/
def Frag.queued (f : Frag) : Bool := f.record == none && f.wait != .held

/-- Waiting fragments take free records in the order of creation. -/
def Warp.assignRecords (w : Warp) : Warp :=
  (w.frags.filter Frag.queued).foldl (fun (w : Warp) f =>
    match w.freeRecord with
    | some r => w.setFrag { f with record := some r }
    | none => w) w

/-- A parked fragment (R167). -/
def Frag.parked (f : Frag) : Bool :=
  match f.wait with
  | .parked _ => true
  | _ => false

/-- The fragment, stopped at its chain head: what `RESUME`, a wake and a resumption re-execute (R49). -/
def Frag.atHead (f : Frag) : Frag :=
  { f with pc := f.head, chain := [], cover := [], readyFor := 0, promoted := none, latch := none, bytes := [] }

/-! ### Pager futures and the page-request queue (R244, R492) -/

/-- Bytes that the headbox writes for a context at an address, whose key is within its reach, at system scope; away from die 0 they cross
in class 3 (R273). -/
def State.headboxWrite (s : State) (c : Ctx) (va key : Nat) (bs : List Byte) : State :=
  { (s.headboxWalk c .write va key).cross (Sender.ofDie 0 c.part c.slot) 3 key with mem := memWrites s.mem key bs }

/-- Writes held requests while the queue has room and its entry can be written. -/
def flushRequests : Nat → State → Ctx → State × Ctx
  | 0, s, c => (s, c)
  | n + 1, s, c =>
    match c.heldRequests with
    | [] => (s, c)
    | r :: rs =>
      if c.prqsize = 0 ∨ c.prqhead - c.prqtail = c.prqsize then (s, c)
      else
        let va := c.prqbase.toNat + 16 * (c.prqhead.toNat % c.prqsize.toNat)
        match s.headboxKey c .write va with
        | none => (s, c)
        | some key =>
          flushRequests n (s.headboxWrite c va key (bytesLE 16 r.toNat))
            { c with prqhead := c.prqhead + 1, heldRequests := rs, countedRequests := c.countedRequests - 1 }

/-- The counter of records and requests held back goes up by a number, and saturates (R460). -/
def State.countHeld (s : State) (n : Nat) : State :=
  { s with counters := { s.counters with held := (List.range n).foldl (fun w _ => satInc w) s.counters.held } }

/-- The requests that are still held are counted, each once (R492). -/
def State.flushRequestsOf (s : State) (c : Ctx) : State :=
  let (s', c') := flushRequests c.heldRequests.length s c
  let n := c'.heldRequests.length
  (s'.setCtx { c' with countedRequests := n }).countHeld (n - c'.countedRequests)

/-- The number of the future that starts next: the preferred one when it is free, else the lowest free one (R244; log entry
67). -/
def State.freeFuture (s : State) (c : Ctx) : Option Nat :=
  (s.prefer.toList ++ List.range 1024).find? (fun n => decide (n < 1024) && !c.futures.any (fun f => f.n == n))

/-- The live future of a 4 KiB page, or a free one started with a request record (R244); none when no future is
free. `src` is the core of the access, or 0xFF for a headbox. -/
def State.joinFuture (s : State) (part slot page : Nat) (mig expl wr : Bool) (src : Nat) : Option (Nat × State) :=
  match s.ctx? part slot with
  | none => none
  | some c =>
    match c.futures.find? (fun f => f.page == page) with
    | some f => some (f.n, s)
    | none =>
      match s.freeFuture c with
      | none => none
      | some n =>
        let va := page % 2 ^ 45 * 4096 + (if mig then 4 else 0) + (if expl then 2 else 0) + (if wr then 1 else 0)
        let r : Request := BitVec.ofNat 128 (va + n * 2 ^ 64 + src * 2 ^ 96)
        let c' := { c with futures := c.futures ++ [{ n := n, page := page }], heldRequests := c.heldRequests ++ [r] }
        some (n, (s.setCtx c').flushRequestsOf c')

/-- Joins or starts the future of every page that has none yet (R244). -/
def State.joinAll (s : State) (part slot : Nat) : List Join → State × List Join
  | [] => (s, [])
  | j :: js =>
    match (if j.n.isSome then none else s.joinFuture part slot j.page j.mig j.expl j.wr j.src) with
    | some (n, s') =>
      let (s'', js') := s'.joinAll part slot js
      (s'', { j with n := some n } :: js')
    | none =>
      let (s'', js') := s.joinAll part slot js
      (s'', j :: js')

/-- The wait of an access on the pages that it needs. -/
def State.waitOnPages (s : State) (part slot : Nat) (js : List Join) : State × Wait :=
  let (s, js) := s.joinAll part slot js
  (s, .futures js)

/-! ### Completion signals (R494) and the fault queue (R401, R492) -/

/-- An 8-byte atomic addition by the headbox at a resident address with its key. -/
def State.addAt (s : State) (c : Ctx) (va key : Nat) (n : Nat) : State :=
  s.headboxWrite c va key (bytesLE 8 ((memNat s.mem key 8 + n) % 2 ^ 64))

/-- What became of an addition to a signal. -/
inductive Added where
  | done (s : State)
  | waits (s : State) (future : Nat)
  | lost
  /-- A non-resident page and no free future, or a home out of reach: the addition is tried again. -/
  | blocked

/-- The addition of `n` to the signal at a virtual address of a context (R494). -/
def State.addSignal (s : State) (c : Ctx) (addr n : Nat) : Added :=
  match (if 2 ^ 57 ≤ addr then .prot 0 else s.headboxXlat c .write addr) with
  | .ok key => .done (s.addAt c addr key n)
  | .stalled _ => .blocked
  | .waits mig =>
    match s.joinFuture c.part c.slot (addr / 4096) mig false true 0xFF with
    | some (f, s') => .waits s' f
    | none => .blocked
  | _ => .lost

/-- A record's 64 bytes (R398). -/
def Record.bytes (r : Record) : List Byte :=
  bytesLE 8 r.pc.toNat ++ bytesLE 4 r.lanes.toNat ++ bytesLE 4 r.code.toNat ++ bytesLE 4 r.frag.toNat ++
  bytesLE 4 r.seq.toNat ++ bytesLE 4 r.detail.toNat ++ bytesLE 4 r.aux.toNat ++ bytesLE 8 r.addr.toNat ++
  bytesLE 4 r.who.toNat ++ bytesLE 4 r.kid.toNat ++ bytesLE 4 r.gx.toNat ++ bytesLE 4 r.gy.toNat ++
  bytesLE 4 r.gz.toNat ++ bytesLE 4 r.gridn.toNat

/-- A context event (R400): 1 PREEMPT_LATE, 2 HUNG, 3 SAVEFULL, 4 SIGLOST. -/
def eventRecord (detail : Nat) (addr kid gridn : Nat) (gx gy gz : Word) : Record :=
  { pc := 0, lanes := 0, code := 0, frag := 0, seq := 0, detail := BitVec.ofNat 32 detail, aux := 0,
    addr := BitVec.ofNat 64 addr, who := 0, kid := BitVec.ofNat 32 kid, gx := gx, gy := gy, gz := gz,
    gridn := BitVec.ofNat 32 gridn, behind := none, own := false }

/-- The live entry of a record that parks no fragment: its answer changes nothing (R400, R443, R444). -/
def Live.plain (seq : BitVec 24) (code : Nat) : Live :=
  { seq := seq, code := code, group := 0, role := .epilogue, index := 0, frag := none, lanes := 0, skip := 0 }

/-- An MSI-X message of a context (R401), which waits until link 13 carries it (R436). -/
def State.interrupt (s : State) (c : Ctx) : State :=
  if s.linkUp 13 then { s with msix := (c.part, c.slot) :: s.msix } else { s with irqs := s.irqs ++ [(c.part, c.slot)] }

/-- The MSI-X messages that wait are sent once link 13 carries them. -/
def State.sendIrqs (s : State) : State :=
  if s.linkUp 13 && !s.irqs.isEmpty then { s with msix := s.irqs.reverse ++ s.msix, irqs := [] } else s

/-- Writes held records, oldest first, while the queue has room and its entry can be written; each write increments FQHEAD,
adds 1 to FQSIG and sends the MSI-X message (R401, R492). -/
def flushFaults : Nat → State → Ctx → State × Ctx
  | 0, s, c => (s, c)
  | n + 1, s, c =>
    match c.heldFaults with
    | [] => (s, c)
    | r :: rs =>
      if r.behind.isSome = true ∨ c.fqsize = 0 ∨ c.fqhead - c.fqtail = c.fqsize then (s, c)
      else
        let va := c.fqbase.toNat + 64 * (c.fqhead.toNat % c.fqsize.toNat)
        match s.headboxKey c .write va with
        | none => (s, c)
        | some key =>
          let s := s.headboxWrite c va key r.bytes
          let s := if c.cfg.getLsbD 2 then s.interrupt c else s
          let c := { c with fqhead := c.fqhead + 1, heldFaults := rs, countedFaults := c.countedFaults - 1 }
          if c.fqsig = 0 ∨ r.own = true then flushFaults n s c
          else match (s.setCtx c).addSignal c c.fqsig.toNat 1 with
            | .done s => flushFaults n s c
            | .waits s f =>
              let c := (s.ctx? c.part c.slot).getD c
              flushFaults n s { c with adds := c.adds ++ [{ future := some f, addr := c.fqsig, n := 1, what := .fqsig }] }
            | .blocked => flushFaults n s { c with adds := c.adds ++ [{ future := none, addr := c.fqsig, n := 1, what := .fqsig }] }
            | .lost =>
              flushFaults n s { c with
                heldFaults := c.heldFaults ++ [{ eventRecord 4 c.fqsig.toNat 0 0 0 0 0 with seq := c.seq, own := true }],
                live := c.live ++ [Live.plain c.seq 0], seq := c.seq + 1 }

/-- The records that the queue holds back, up to one that waits for its own release. -/
def Ctx.heldBack (c : Ctx) : Nat := (c.heldFaults.takeWhile (fun r => r.behind.isNone)).length

/-- A record whose release is over waits for its queue alone (R401). -/
def State.behindOver (s : State) (r : Record) : Record :=
  if r.behind.any (fun b => s.unacknowledged b.1 b.2 || s.unperformed b.1 b.2) then r else { r with behind := none }

/-- The records of a context written as far as they can be. Those still held back are counted, each once (R492). -/
def State.flushFaultsOf (s : State) (c : Ctx) : State :=
  let (s', c') := flushFaults (2 * c.heldFaults.length + 2) s { c with heldFaults := c.heldFaults.map s.behindOver }
  let n := max c'.heldBack c'.countedFaults
  (s'.setCtx { c' with countedFaults := n }).countHeld (n - c'.countedFaults)

/-- A record joins its context's queue with the next sequence number (R401). -/
def State.postRecord (s : State) (part slot : Nat) (r : Record) (live : Live) : State :=
  match s.ctx? part slot with
  | none => s
  | some c =>
    let c' := { c with
      seq := c.seq + 1
      heldFaults := c.heldFaults ++ [{ r with seq := c.seq }]
      live := c.live ++ [{ live with seq := c.seq }] }
    (s.setCtx c').flushFaultsOf c'

/-! ### Taking an exception -/

/-- The fault codes (R399). -/
inductive FaultCode where
  | ud | role | priv | bounds | prot | align | illfmt | rcpill | stallshort | budgetdl | queue | barrier | lostpermit
  | mchk | trap | assert | bkpt
  deriving DecidableEq, Repr

def FaultCode.num : FaultCode → Nat
  | .ud => 1 | .role => 2 | .priv => 3 | .bounds => 4 | .prot => 5 | .align => 6 | .illfmt => 7 | .rcpill => 8
  | .stallshort => 9 | .budgetdl => 10 | .queue => 11 | .barrier => 12 | .lostpermit => 13 | .mchk => 14 | .trap => 15
  | .assert => 16 | .bkpt => 17

/-- A fault of an instruction: what its record carries (R398, R400), and the lanes it arises in, or none when it is
raised for the instruction as a whole (R491). -/
structure Trap where
  code   : FaultCode
  detail : Word := 0
  aux    : Word := 0
  addr   : Dword := 0
  /-- The recipe slot of a replay fault (R144). -/
  rpl    : Option Nat := none
  lanes  : Option Word := none
  /-- The denied accesses whose cached translations are discarded (R241). -/
  stale  : List (Access × Nat) := []
  deriving DecidableEq, Repr

/-- Cached translations that denied accesses of a master are discarded (R241). -/
def State.forget (s : State) (m : Master) (xs : List (Access × Nat)) : State :=
  match s.ctx? m.part m.slot with
  | some c => xs.foldl (fun s x => s.discardDenied m c x.1 x.2) s
  | none => s

/-- The WHO word (R398). -/
def Warp.who (w : Warp) : Word :=
  BitVec.ofNat 32 (w.index * 2 ^ 24 + roleNat w.role * 2 ^ 22 + w.core * 2 ^ 16 + w.slot)

/-- The FRAG word (R398): records of the other fragments, the record split from, the own record. -/
def fragWord (role : Role) (others : List Nat) (par own : Nat) : Word :=
  if role = .epilogue then
    BitVec.ofNat 32 ((others.foldl (fun a r => a + 2 ^ r) 0) * 2 ^ 16 + par * 2 ^ 8 + own)
  else 0xF0F

/-- The CODE word (R398). -/
def Trap.codeWord (t : Trap) : Word :=
  BitVec.ofNat 32 (t.code.num + (match t.rpl with | some x => 2 ^ 31 + x * 2 ^ 16 | none => 0))

/-- Whether a trap parks part of the fragment only: some active lane does not fault and a record is free (R167). -/
def Trap.splits (t : Trap) (w : Warp) (f : Frag) : Bool :=
  match t.lanes with
  | none => false
  | some m => w.role == .epilogue && f.lanes &&& m != f.lanes && w.freeRecord.isSome

/-- Takes an exception (R167, R401): the faulting lanes park at the chain head with copies of both stacks, in the lowest
free record, or the whole fragment parks in its own record; the record joins the fault queue, as a release at system
scope of the core. -/
def State.raise (s : State) (ref : FragRef) (t : Trap) : State :=
  match s.warp? ref.warp with
  | none => s
  | some w =>
    match w.frag? ref.frag, s.group? w.group with
    | some f, some g =>
      let s := s.forget { part := g.part, slot := g.ctx, eng := 0, core := w.core } t.stale
      let seq := ((s.ctxOf g).map Ctx.seq).getD 0
      let split := t.splits w f
      let m := f.lanes &&& t.lanes.getD 0xFFFFFFFF
      let own := if split then w.freeRecord else f.record
      let parked : Frag :=
        { f.atHead with id := (if split then w.nextFrag else f.id), record := own,
                        lanes := (if split then m else f.lanes), wait := .parked seq, stallTill := 0, restTill := 0, yielded := false }
      let w' : Warp :=
        if split then
          { w with
            frags := replaceBy Frag.id { f with lanes := f.lanes &&& ~~~m } w.frags ++ [parked]
            nextFrag := w.nextFrag + 1 }
        else w.setFrag parked
      let others := (w'.frags.filter (fun x => x.id != parked.id)).filterMap Frag.record
      let grid := s.grid? g.grid
      let r : Record :=
        { pc := f.head, lanes := if w.role = .epilogue then parked.lanes else 1, code := t.codeWord,
          frag := fragWord w.role others (f.record.getD 15) (own.getD 15), seq := 0, detail := t.detail, aux := t.aux,
          addr := t.addr, who := w.who, kid := BitVec.ofNat 32 ((grid.map Grid.kid).getD 0), gx := g.gx, gy := g.gy,
          gz := g.gz, gridn := (grid.map Grid.gridn).getD 0,
          behind := some (w.core, s.storeNumber w.core), own := false }
      let live : Live :=
        { seq := 0, code := t.code.num, group := g.uid, role := w.role, index := w.index,
          frag := some { warp := w.uid, frag := parked.id }, lanes := parked.lanes, skip := parked.skip }
      ((s.setWarp w').drainCore w.core).postRecord g.part g.ctx r live
    | _, _ => s

/-- Returns from an exception (R167): `RESUME` issues at the chain head, where a `BSYNC` that has arrived only waits (R363), and
`SKIP` at the word after the instruction. -/
def Frag.unpark (f : Frag) (skip : Bool) : Frag :=
  let f := { f with wait := .none, chain := [], cover := [], granted := false, denied := 0, latch := none, bytes := [] }
  if skip then { f with pc := f.skip, head := f.skip, arrived := none } else { f with pc := f.head }

/-- Fragments that wait at a `CVWAIT` behind a parked fragment go on once none is parked (R165). -/
def Warp.releaseBehind (w : Warp) : Warp :=
  if w.frags.any Frag.parked then w
  else { w with frags := w.frags.map (fun f =>
      if f.wait = .behind then { f with wait := .none, pc := f.skip, head := f.skip, chain := [], cover := [], latch := none } else f) }

end Sys2Proof.Machine
end

