-- ==== Sys2Proof/Machine/Operands.lean ====
section
/-! DEFINITION. What each instruction accepts and touches: its role (R45), its hints (R48, R55 to R60), its latency
(R62), the registers it reads and writes, and the vector registers that last-read marks name (R53). -/

namespace Sys2Proof.Machine

/-- What the chain's immediate does (R56): nothing accepts it, `I = 1` demands it, or it may replace an immediate field,
which must then be zero. -/
inductive ImmUse where
  | no
  | flag (i : BitVec 1)
  | field (zero : Bool)
  deriving DecidableEq, Repr

/-- What the checks before execution and the scoreboard know of an instruction. -/
structure Shape where
  /-- The only role that may issue it, or every role. -/
  role    : Option Role := none
  imm     : ImmUse := .no
  /-- The immediates of a chain that it takes (R431). -/
  immOk   : Word → Bool := fun _ => true
  /-- The HMOD fields consumed, when HMOD is accepted at all. -/
  mods    : Option (List ModField) := none
  modOk   : HMod → Bool := fun _ => true
  /-- SELA is a key selector (R196), not one of R58. -/
  keySel  : Bool := false
  pred    : Bool := false
  perm    : Bool := false
  permA   : Bool := false
  permB   : Bool := false
  /-- The fixed latency of R62; zero when scoreboarded. -/
  latency : Nat := 0
  src     : List Reg := []
  dst     : List Reg := []
  /-- Vector names read and written besides when WID is 1 (R226). -/
  wideSrc : List Nat := []
  wideDst : List Nat := []
  lastA   : Option Nat := none
  lastB   : Option Nat := none

/-! ### Register lists -/

def rs (n : BitVec 6) : List Reg := [.s n.toNat]
def rsUnless (i : BitVec 1) (n : BitVec 6) : List Reg := if i = 0#1 then [.s n.toNat] else []
def rsn (n count : Nat) : List Reg := (List.range count).map (fun j => .s (n + j))
def rp (n : BitVec 6) : List Reg := rsn n.toNat 2
def rpUnless (i : BitVec 1) (n : BitVec 6) : List Reg := if i = 0#1 then rp n else []
/-- A scalar, or a pair for size code 5. -/
def rz (n : BitVec 6) (z : BitVec 3) : List Reg := rsn n.toNat (if z = 5#3 then 2 else 1)
def rc (n : BitVec 3) : List Reg := [.c n.toNat]
def rk (n : BitVec 3) : List Reg := [.k n.toNat]
def rd (n : BitVec 4) : List Reg := [.d n.toNat]
def rv (n : BitVec 7) : List Reg := [.v n.toNat]
def rvUnless (i : BitVec 1) (n : BitVec 7) : List Reg := if i = 0#1 then rv n else []
def rvn (n count : Nat) : List Reg := (List.range count).map (fun j => .v (n + j))
def rw (n : BitVec 7) : List Reg := rvn n.toNat 2
def rwUnless (i : BitVec 1) (n : BitVec 7) : List Reg := if i = 0#1 then rw n else []
/-- The registers of a size code: two for b64, four for b128. -/
def rvz (n : BitVec 7) (z : BitVec 3) : List Reg := rvn n.toNat (if z = 5#3 then 2 else if z = 6#3 then 4 else 1)
/-- A 6-bit vector field of format A or AS. -/
def ra (n : BitVec 6) : List Reg := [.v n.toNat]
/-- The registers of a precision: a pair for binary64 (R180). -/
def rf {w : Nat} (p : BitVec w) (n : BitVec 7) : List Reg := rvn n.toNat (if p.toNat = 1 then 2 else 1)
def rfUnless {w : Nat} (p : BitVec w) (i : BitVec 1) (n : BitVec 7) : List Reg := if i = 0#1 then rf p n else []

/-- The fixed latency of a class 0x4 form of VFADD to VFCLS (R62). -/
def fpLatency (p : BitVec 2) : Nat := if p = 1#2 then 10 else 6

/-! ### Legal HMOD values (R196, R200, R220, R226, R264) -/

/-- The key selectors of `VMATCH` (R196). -/
def keySelector (h : HMod) : Bool :=
  match h.wid with
  | 0 => h.sela == 0
  | 1 => h.sela == 1 || h.sela == 2
  | 2 => decide (1 ≤ h.sela) && decide (h.sela ≤ 4)
  | _ => true
def ordLoad (h : HMod) : Bool := h.ord ≤ 1
def ordStore (h : HMod) : Bool := h.ord == 0 || h.ord == 2
def ordFence (h : HMod) : Bool := h.ord != 0
def atomSize (h : HMod) : Bool := h.wid ≤ 1
/-- For b64, every vector field is even (R226). -/
def evenWide {w : Nat} (h : HMod) (fields : List (BitVec w)) : Bool := h.wid == 0 || fields.all (fun f => !f.getLsbD 0)
/-- The HMOD fields of a reduction (R200): SAT and SGN for add alone, WID for the integer operations. -/
def redMods (op : BitVec 4) (h : HMod) : Bool :=
  (op == 0#4 || (!h.sat && !h.sgn)) && (op.ule 7#4 || h.wid == 0)

/-- The shape of every instruction. An event has none. `VMOVI` accepts no `HPERM`: the table of R48 says so, and R170 names `VMOVS`
and `VIDX` alone, while R177 has `VMOVI` accept one of the none pattern (log entry 71). A pack reads the lanes of `vd` that it
keeps (R203; log entry 72). -/
def shape : Instr → Shape
  | .sadd d a b i => { imm := .flag i, latency := 2, src := rs a ++ rsUnless i b, dst := rs d }
  | .saddc d a b i c => { imm := .flag i, latency := 2, src := rs a ++ rsUnless i b ++ rc c, dst := rs d ++ rc c }
  | .ssub d a b i => { imm := .flag i, latency := 2, src := rs a ++ rsUnless i b, dst := rs d }
  | .ssubb d a b i c => { imm := .flag i, latency := 2, src := rs a ++ rsUnless i b ++ rc c, dst := rs d ++ rc c }
  | .smul d a b i => { imm := .flag i, latency := 2, src := rs a ++ rsUnless i b, dst := rs d }
  | .smulhi d a b i => { imm := .flag i, latency := 2, src := rs a ++ rsUnless i b, dst := rs d }
  | .smulhu d a b i => { imm := .flag i, latency := 2, src := rs a ++ rsUnless i b, dst := rs d }
  | .smad d a b i => { imm := .flag i, latency := 2, src := rs a ++ rsUnless i b ++ rs d, dst := rs d }
  | .sdiv d a b i => { imm := .flag i, src := rs a ++ rsUnless i b, dst := rs d }
  | .sdivu d a b i => { imm := .flag i, src := rs a ++ rsUnless i b, dst := rs d }
  | .srem d a b i => { imm := .flag i, src := rs a ++ rsUnless i b, dst := rs d }
  | .sremu d a b i => { imm := .flag i, src := rs a ++ rsUnless i b, dst := rs d }
  | .sand d a b i => { imm := .flag i, latency := 2, src := rs a ++ rsUnless i b, dst := rs d }
  | .sor d a b i => { imm := .flag i, latency := 2, src := rs a ++ rsUnless i b, dst := rs d }
  | .sxor d a b i => { imm := .flag i, latency := 2, src := rs a ++ rsUnless i b, dst := rs d }
  | .sandn d a b i => { imm := .flag i, latency := 2, src := rs a ++ rsUnless i b, dst := rs d }
  | .sshl d a b i => { imm := .flag i, latency := 2, src := rs a ++ rsUnless i b, dst := rs d }
  | .sshr d a b i => { imm := .flag i, latency := 2, src := rs a ++ rsUnless i b, dst := rs d }
  | .ssra d a b i => { imm := .flag i, latency := 2, src := rs a ++ rsUnless i b, dst := rs d }
  | .srol d a b i => { imm := .flag i, latency := 2, src := rs a ++ rsUnless i b, dst := rs d }
  | .smin d a b i => { imm := .flag i, latency := 2, src := rs a ++ rsUnless i b, dst := rs d }
  | .smax d a b i => { imm := .flag i, latency := 2, src := rs a ++ rsUnless i b, dst := rs d }
  | .sminu d a b i => { imm := .flag i, latency := 2, src := rs a ++ rsUnless i b, dst := rs d }
  | .smaxu d a b i => { imm := .flag i, latency := 2, src := rs a ++ rsUnless i b, dst := rs d }
  | .scmp k _ a b i => { imm := .flag i, latency := 2, src := rs a ++ rsUnless i b, dst := rc k }
  | .ssel d a b i c => { imm := .flag i, latency := 2, src := rs a ++ rsUnless i b ++ rc c, dst := rs d }
  | .smov d a => { latency := 2, src := rs a, dst := rs d }
  | .smovi d i => { imm := .field (i == 0#16), latency := 2, dst := rs d }
  | .smovhi d i => { imm := .field (i == 0#16), latency := 2, src := rs d, dst := rs d }
  | .sclz d a => { latency := 2, src := rs a, dst := rs d }
  | .spopc d a => { latency := 2, src := rs a, dst := rs d }
  | .sbfe d a b i => { imm := .flag i, latency := 2, src := rs a ++ rsUnless i b, dst := rs d }
  | .sbfi d a b i => { imm := .flag i, latency := 2, src := rs a ++ rsUnless i b ++ rs d, dst := rs d }
  | .sadd64 d a b i => { imm := .flag i, latency := 2, src := rp a ++ rpUnless i b, dst := rp d }
  | .ssub64 d a b i => { imm := .flag i, latency := 2, src := rp a ++ rpUnless i b, dst := rp d }
  | .sshl64 d a b i => { imm := .flag i, latency := 2, src := rp a ++ rsUnless i b, dst := rp d }
  | .sshr64 d a b i => { imm := .flag i, latency := 2, src := rp a ++ rsUnless i b, dst := rp d }
  | .sld d i n z => { mods := some [.scope, .order], modOk := ordLoad, src := rd n ++ rs i, dst := rz d z }
  | .sst s i n z => { mods := some [.scope, .order], modOk := ordStore, src := rd n ++ rs i ++ rz s z }
  | .satom s i n z _ => { mods := some [.scope, .order], src := rd n ++ rs i ++ rz s z, dst := rz s z }
  | .scas s i n z => { mods := some [.scope, .order], src := rd n ++ rs i ++ rz s z ++ rsn (s.toNat + (if z = 5#3 then 2 else 1)) (if z = 5#3 then 2 else 1), dst := rz s z }
  | .sget d _ => { dst := rs d }
  | .ssetx s _ => { src := rs s }
  | .dload m i n => { src := rd m ++ rs i, dst := rd n }
  | .dmake s n => { src := rsn s.toNat 4, dst := rd n }
  | .dset s n o => { src := rd n ++ (if o = 0#3 then rp s else rs s), dst := rd n }
  | .dget s n => { src := rd n, dst := rsn s.toNat 4 }
  | .pgreq s _ _ => { src := rp s }
  | .fence => { mods := some [.scope, .order], modOk := ordFence }
  | .sldk d n => { imm := .field (n == 0#16), immOk := (fun v => v.toNat % 4 == 0), dst := rs d }
  | .bra _ => {}
  | .brac c _ _ => { src := rc c }
  | .brak k _ _ => { role := some .epilogue, src := rk k }
  | .braka k _ _ => { role := some .epilogue, src := rk k }
  | .call _ => {}
  | .calli s _ => { src := rs s }
  | .ret => {}
  | .jmpi s _ => { src := rp s }
  | .cvset _ => { role := some .epilogue }
  | .cvwait => { role := some .epilogue }
  | .exit => {}
  | .nop => {}
  | .yield => {}
  | .loop s _ => { src := rs s, dst := rs s }
  | .vadd d a b i => { role := some .epilogue, imm := .flag i, mods := some [.wid, .sela, .selb, .sat, .sgn], pred := true, perm := true, permA := true, permB := (i == 0#1), latency := 4, src := rv a ++ rvUnless i b, dst := rv d, lastA := some a.toNat, lastB := (if i = 0#1 then some b.toNat else none) }
  | .vavg d a b i => { role := some .epilogue, imm := .flag i, mods := some [.wid, .sela, .selb, .sgn], pred := true, perm := true, permA := true, permB := (i == 0#1), latency := 4, src := rv a ++ rvUnless i b, dst := rv d, lastA := some a.toNat, lastB := (if i = 0#1 then some b.toNat else none) }
  | .vsub d a b i => { role := some .epilogue, imm := .flag i, mods := some [.wid, .sela, .selb, .sat, .sgn], pred := true, perm := true, permA := true, permB := (i == 0#1), latency := 4, src := rv a ++ rvUnless i b, dst := rv d, lastA := some a.toNat, lastB := (if i = 0#1 then some b.toNat else none) }
  | .vmul d a b i => { role := some .epilogue, imm := .flag i, mods := some [.wid, .sela, .selb, .sat, .sgn], pred := true, perm := true, permA := true, permB := (i == 0#1), latency := 4, src := rv a ++ rvUnless i b, dst := rv d, lastA := some a.toNat, lastB := (if i = 0#1 then some b.toNat else none) }
  | .vmulhi d a b i => { role := some .epilogue, imm := .flag i, mods := some [.wid, .sela, .selb], pred := true, perm := true, permA := true, permB := (i == 0#1), latency := 4, src := rv a ++ rvUnless i b, dst := rv d, lastA := some a.toNat, lastB := (if i = 0#1 then some b.toNat else none) }
  | .vmulhu d a b i => { role := some .epilogue, imm := .flag i, mods := some [.wid, .sela, .selb], pred := true, perm := true, permA := true, permB := (i == 0#1), latency := 4, src := rv a ++ rvUnless i b, dst := rv d, lastA := some a.toNat, lastB := (if i = 0#1 then some b.toNat else none) }
  | .vmad d a b i => { role := some .epilogue, imm := .flag i, mods := some [.wid, .sela, .selb, .sat, .sgn], pred := true, perm := true, permA := true, permB := (i == 0#1), latency := 4, src := rv a ++ rvUnless i b ++ rv d, dst := rv d, lastA := some a.toNat, lastB := (if i = 0#1 then some b.toNat else none) }
  | .vand d a b i => { role := some .epilogue, imm := .flag i, mods := some [.wid, .sela, .selb], pred := true, perm := true, permA := true, permB := (i == 0#1), latency := 4, src := rv a ++ rvUnless i b, dst := rv d, lastA := some a.toNat, lastB := (if i = 0#1 then some b.toNat else none) }
  | .vor d a b i => { role := some .epilogue, imm := .flag i, mods := some [.wid, .sela, .selb], pred := true, perm := true, permA := true, permB := (i == 0#1), latency := 4, src := rv a ++ rvUnless i b, dst := rv d, lastA := some a.toNat, lastB := (if i = 0#1 then some b.toNat else none) }
  | .vxor d a b i => { role := some .epilogue, imm := .flag i, mods := some [.wid, .sela, .selb], pred := true, perm := true, permA := true, permB := (i == 0#1), latency := 4, src := rv a ++ rvUnless i b, dst := rv d, lastA := some a.toNat, lastB := (if i = 0#1 then some b.toNat else none) }
  | .vandn d a b i => { role := some .epilogue, imm := .flag i, mods := some [.wid, .sela, .selb], pred := true, perm := true, permA := true, permB := (i == 0#1), latency := 4, src := rv a ++ rvUnless i b, dst := rv d, lastA := some a.toNat, lastB := (if i = 0#1 then some b.toNat else none) }
  | .vshl d a b i => { role := some .epilogue, imm := .flag i, mods := some [.wid, .sela, .selb], pred := true, perm := true, permA := true, permB := (i == 0#1), latency := 4, src := rv a ++ rvUnless i b, dst := rv d, lastA := some a.toNat, lastB := (if i = 0#1 then some b.toNat else none) }
  | .vshr d a b i => { role := some .epilogue, imm := .flag i, mods := some [.wid, .sela, .selb], pred := true, perm := true, permA := true, permB := (i == 0#1), latency := 4, src := rv a ++ rvUnless i b, dst := rv d, lastA := some a.toNat, lastB := (if i = 0#1 then some b.toNat else none) }
  | .vsra d a b i => { role := some .epilogue, imm := .flag i, mods := some [.wid, .sela, .selb], pred := true, perm := true, permA := true, permB := (i == 0#1), latency := 4, src := rv a ++ rvUnless i b, dst := rv d, lastA := some a.toNat, lastB := (if i = 0#1 then some b.toNat else none) }
  | .vmin d a b i => { role := some .epilogue, imm := .flag i, mods := some [.wid, .sela, .selb], pred := true, perm := true, permA := true, permB := (i == 0#1), latency := 4, src := rv a ++ rvUnless i b, dst := rv d, lastA := some a.toNat, lastB := (if i = 0#1 then some b.toNat else none) }
  | .vmax d a b i => { role := some .epilogue, imm := .flag i, mods := some [.wid, .sela, .selb], pred := true, perm := true, permA := true, permB := (i == 0#1), latency := 4, src := rv a ++ rvUnless i b, dst := rv d, lastA := some a.toNat, lastB := (if i = 0#1 then some b.toNat else none) }
  | .vminu d a b i => { role := some .epilogue, imm := .flag i, mods := some [.wid, .sela, .selb], pred := true, perm := true, permA := true, permB := (i == 0#1), latency := 4, src := rv a ++ rvUnless i b, dst := rv d, lastA := some a.toNat, lastB := (if i = 0#1 then some b.toNat else none) }
  | .vmaxu d a b i => { role := some .epilogue, imm := .flag i, mods := some [.wid, .sela, .selb], pred := true, perm := true, permA := true, permB := (i == 0#1), latency := 4, src := rv a ++ rvUnless i b, dst := rv d, lastA := some a.toNat, lastB := (if i = 0#1 then some b.toNat else none) }
  | .vabsd d a b i => { role := some .epilogue, imm := .flag i, mods := some [.wid, .sela, .selb, .sgn], pred := true, perm := true, permA := true, permB := (i == 0#1), latency := 4, src := rv a ++ rvUnless i b, dst := rv d, lastA := some a.toNat, lastB := (if i = 0#1 then some b.toNat else none) }
  | .vsad d a b i => { role := some .epilogue, imm := .flag i, mods := some [.wid, .sela, .selb, .sat, .sgn], pred := true, perm := true, permA := true, permB := (i == 0#1), latency := 4, src := rv a ++ rvUnless i b ++ rv d, dst := rv d, lastA := some a.toNat, lastB := (if i = 0#1 then some b.toNat else none) }
  | .vcmp k _ a b i => { role := some .epilogue, imm := .flag i, mods := some [], pred := true, perm := true, permA := true, permB := (i == 0#1), latency := 4, src := rv a ++ rvUnless i b, dst := rk k, lastA := some a.toNat, lastB := (if i = 0#1 then some b.toNat else none) }
  | .vsel d a b i => { role := some .epilogue, imm := .flag i, mods := some [], pred := true, perm := true, permA := true, permB := (i == 0#1), latency := 4, src := rv a ++ rvUnless i b, dst := rv d, lastA := some a.toNat, lastB := (if i = 0#1 then some b.toNat else none) }
  | .vmov d a => { role := some .epilogue, mods := some [.wid, .sela], pred := true, perm := true, permA := true, permB := false, latency := 4, src := rv a, dst := rv d, lastA := some a.toNat }
  | .vmovi d i => { role := some .epilogue, imm := .field (i == 0#15), mods := some [], pred := true, latency := 4, dst := rv d }
  | .vmovs d s => { role := some .epilogue, mods := some [], pred := true, perm := true, permA := false, permB := false, latency := 4, src := rs s, dst := rv d }
  | .vclz d a => { role := some .epilogue, mods := some [.wid, .sela], pred := true, perm := true, permA := true, permB := false, latency := 4, src := rv a, dst := rv d, lastA := some a.toNat }
  | .vpopc d a => { role := some .epilogue, mods := some [.wid, .sela], pred := true, perm := true, permA := true, permB := false, latency := 4, src := rv a, dst := rv d, lastA := some a.toNat }
  | .vbfe d a b i => { role := some .epilogue, imm := .flag i, mods := some [], pred := true, perm := true, permA := true, permB := (i == 0#1), latency := 4, src := rv a ++ rvUnless i b, dst := rv d, lastA := some a.toNat, lastB := (if i = 0#1 then some b.toNat else none) }
  | .vbfi d a b i => { role := some .epilogue, imm := .flag i, mods := some [], pred := true, perm := true, permA := true, permB := (i == 0#1), latency := 4, src := rv a ++ rvUnless i b ++ rv d, dst := rv d, lastA := some a.toNat, lastB := (if i = 0#1 then some b.toNat else none) }
  | .vadd64 d a b i => { role := some .epilogue, imm := .flag i, mods := some [], pred := true, perm := true, permA := true, permB := (i == 0#1), latency := 4, src := rw a ++ rwUnless i b, dst := rw d, lastA := some a.toNat, lastB := (if i = 0#1 then some b.toNat else none) }
  | .vsub64 d a b i => { role := some .epilogue, imm := .flag i, mods := some [], pred := true, perm := true, permA := true, permB := (i == 0#1), latency := 4, src := rw a ++ rwUnless i b, dst := rw d, lastA := some a.toNat, lastB := (if i = 0#1 then some b.toNat else none) }
  | .vidx d i => { role := some .epilogue, imm := .flag i, mods := some [], pred := true, perm := true, permA := false, permB := false, latency := 4, dst := rv d }
  | .vfadd p d a b i => { role := some .epilogue, imm := .flag i, mods := some [.rnd, .na, .nb, .xa, .xb], pred := true, perm := true, permA := true, permB := (i == 0#1), latency := fpLatency p, src := rf p a ++ rfUnless p i b, dst := rf p d, lastA := some a.toNat, lastB := (if i = 0#1 then some b.toNat else none) }
  | .vfsub p d a b i => { role := some .epilogue, imm := .flag i, mods := some [.rnd, .na, .nb, .xa, .xb], pred := true, perm := true, permA := true, permB := (i == 0#1), latency := fpLatency p, src := rf p a ++ rfUnless p i b, dst := rf p d, lastA := some a.toNat, lastB := (if i = 0#1 then some b.toNat else none) }
  | .vfmul p d a b i => { role := some .epilogue, imm := .flag i, mods := some [.rnd, .na, .nb, .xa, .xb], pred := true, perm := true, permA := true, permB := (i == 0#1), latency := fpLatency p, src := rf p a ++ rfUnless p i b, dst := rf p d, lastA := some a.toNat, lastB := (if i = 0#1 then some b.toNat else none) }
  | .vfma p d a b i => { role := some .epilogue, imm := .flag i, mods := some [.rnd, .na, .nb, .xa, .xb], pred := true, perm := true, permA := true, permB := (i == 0#1), latency := fpLatency p, src := rf p a ++ rfUnless p i b ++ rf p d, dst := rf p d, lastA := some a.toNat, lastB := (if i = 0#1 then some b.toNat else none) }
  | .vfmin p d a b i => { role := some .epilogue, imm := .flag i, mods := some [.na, .nb, .xa, .xb], pred := true, perm := true, permA := true, permB := (i == 0#1), latency := fpLatency p, src := rf p a ++ rfUnless p i b, dst := rf p d, lastA := some a.toNat, lastB := (if i = 0#1 then some b.toNat else none) }
  | .vfmax p d a b i => { role := some .epilogue, imm := .flag i, mods := some [.na, .nb, .xa, .xb], pred := true, perm := true, permA := true, permB := (i == 0#1), latency := fpLatency p, src := rf p a ++ rfUnless p i b, dst := rf p d, lastA := some a.toNat, lastB := (if i = 0#1 then some b.toNat else none) }
  | .vfcmp p k _ a b i => { role := some .epilogue, imm := .flag i, mods := some [.na, .nb, .xa, .xb], pred := true, perm := true, permA := true, permB := (i == 0#1), latency := fpLatency p, src := rf p a ++ rfUnless p i b, dst := rk k, lastA := some a.toNat, lastB := (if i = 0#1 then some b.toNat else none) }
  | .vfrnd p d a => { role := some .epilogue, mods := some [.rnd, .na, .xa], pred := true, perm := true, permA := true, permB := false, latency := fpLatency p, src := rf p a, dst := rf p d, lastA := some a.toNat }
  | .vfcls p d a => { role := some .epilogue, mods := some [.na, .xa], pred := true, perm := true, permA := true, permB := false, latency := fpLatency p, src := rf p a, dst := rf p d, lastA := some a.toNat }
  | .vfrcp d a => { role := some .epilogue, mods := some [.na, .xa], pred := true, perm := true, permA := true, permB := false, src := rv a, dst := rv d, lastA := some a.toNat }
  | .vfrsq d a => { role := some .epilogue, mods := some [.na, .xa], pred := true, perm := true, permA := true, permB := false, src := rv a, dst := rv d, lastA := some a.toNat }
  | .vfsqrt p d a => { role := some .epilogue, mods := some [.rnd, .na, .xa], pred := true, perm := true, permA := true, permB := false, src := rf p a, dst := rf p d, lastA := some a.toNat }
  | .vfdiv p d a b i => { role := some .epilogue, imm := .flag i, mods := some [.rnd, .na, .nb, .xa, .xb], pred := true, perm := true, permA := true, permB := (i == 0#1), src := rf p a ++ rfUnless p i b, dst := rf p d, lastA := some a.toNat, lastB := (if i = 0#1 then some b.toNat else none) }
  | .vfexp2 d a => { role := some .epilogue, mods := some [.na, .xa], pred := true, perm := true, permA := true, permB := false, src := rv a, dst := rv d, lastA := some a.toNat }
  | .vflog2 d a => { role := some .epilogue, mods := some [.na, .xa], pred := true, perm := true, permA := true, permB := false, src := rv a, dst := rv d, lastA := some a.toNat }
  | .vftrig d a _ => { role := some .epilogue, mods := some [.na, .xa], pred := true, perm := true, permA := true, permB := false, src := rv a, dst := rv d, lastA := some a.toNat }
  | .vld d i n z _ => { role := some .epilogue, mods := some [.scope, .order], modOk := ordLoad, pred := true, src := rd n ++ rv i, dst := rvz d z, lastA := some i.toNat }
  | .vldp d i n k w => { role := some .epilogue, mods := some [.scope, .order], modOk := ordLoad, pred := true, src := rd n ++ rv i, dst := (if w = 1#1 then rw d else rv d) ++ rk k, lastA := some i.toNat }
  | .vst s i n z _ => { role := some .epilogue, mods := some [.scope, .order], modOk := ordStore, pred := true, src := rd n ++ rv i ++ rvz s z, lastA := some i.toNat }
  | .vlds d a z o => { role := some .epilogue, imm := .field (o == 0#5), pred := true, src := rv a, dst := rvz d z, lastA := some a.toNat }
  | .vsts s a z o => { role := some .epilogue, imm := .field (o == 0#5), pred := true, src := rv a ++ rvz s z, lastA := some a.toNat }
  | .vpref i n _ => { role := some .epilogue, pred := true, src := rd n ++ rv i, lastA := some i.toNat }
  | .vatom f d i s n => { role := some .epilogue, mods := some [.scope, .order, .wid], modOk := (fun h => atomSize h && (h.wid == 0 || f.ule 11#6) && evenWide h [d, i, s]), pred := true, src := rd n ++ ra i ++ ra s, dst := ra d, wideSrc := [s.toNat + 1], wideDst := [d.toNat + 1], lastA := some i.toNat, lastB := some s.toNat }
  | .vcas d i s n => { role := some .epilogue, mods := some [.scope, .order, .wid], modOk := (fun h => atomSize h && evenWide h [d, i, s]), pred := true, src := rd n ++ ra i ++ ra s ++ ra d, dst := ra d, wideSrc := [s.toNat + 1, d.toNat + 1], wideDst := [d.toNat + 1], lastA := some i.toNat, lastB := some s.toNat }
  | .vred o i s n => { role := some .epilogue, mods := some [.scope, .order, .wid], modOk := (fun h => atomSize h && (h.wid == 0 || o.ule 11#6) && evenWide h [i, s]), pred := true, src := rd n ++ ra i ++ ra s, wideSrc := [s.toNat + 1], lastA := some i.toNat, lastB := some s.toNat }
  | .vsatom d a s o => { role := some .epilogue, mods := some [.scope, .order, .wid], modOk := (fun h => atomSize h && h.scope == 0 && (h.wid == 0 || o.ule 11#4) && evenWide h [d, a, s]), pred := true, src := ra a ++ ra s, dst := ra d, wideSrc := [s.toNat + 1], wideDst := [d.toNat + 1], lastA := some a.toNat, lastB := some s.toNat }
  | .vscas d a s => { role := some .epilogue, mods := some [.scope, .order, .wid], modOk := (fun h => atomSize h && h.scope == 0 && evenWide h [d, a, s]), pred := true, src := ra a ++ ra s ++ ra d, dst := ra d, wideSrc := [s.toNat + 1, d.toNat + 1], wideDst := [d.toNat + 1], lastA := some a.toNat, lastB := some s.toNat }
  | .vldl d a o => { role := some .epilogue, imm := .field (o == 0#5), mods := some [.scope, .order, .wid], modOk := (fun h => atomSize h && h.scope == 0 && evenWide h [d, a]), pred := true, src := rv a, dst := rv d, wideDst := [d.toNat + 1], lastA := some a.toNat }
  | .vstul s a o => { role := some .epilogue, imm := .field (o == 0#5), mods := some [.scope, .order, .wid], modOk := (fun h => atomSize h && h.scope == 0 && evenWide h [s, a]), pred := true, src := rv a ++ rv s, wideSrc := [s.toNat + 1], lastA := some a.toNat }
  | .vshfl d a b i => { role := some .epilogue, imm := .flag i, mods := some [], pred := true, perm := true, permA := true, permB := (i == 0#1), latency := 8, src := rv a ++ rvUnless i b, dst := rv d, lastA := some a.toNat, lastB := (if i = 0#1 then some b.toNat else none) }
  | .vperm d a b => { role := some .epilogue, mods := some [], pred := true, perm := true, permA := true, permB := true, latency := 8, src := rv a ++ rv b ++ rv d, dst := rv d, lastA := some a.toNat, lastB := some b.toNat }
  | .vmatch k a m => { role := some .epilogue, mods := some [.wid, .sela], modOk := keySelector, keySel := true, pred := true, perm := true, permA := true, permB := false, latency := 8, src := rv a, dst := rk k ++ rv m, lastA := some a.toNat }
  | .vballot k _ a b i => { role := some .epilogue, imm := .flag i, mods := some [], pred := true, perm := true, permA := true, permB := (i == 0#1), latency := 8, src := rv a ++ rvUnless i b, dst := rk k, lastA := some a.toNat, lastB := (if i = 0#1 then some b.toNat else none) }
  | .vvote k _ a b i => { role := some .epilogue, imm := .flag i, mods := some [], pred := true, perm := true, permA := true, permB := (i == 0#1), latency := 8, src := rv a ++ rvUnless i b, dst := rk k, lastA := some a.toNat, lastB := (if i = 0#1 then some b.toNat else none) }
  | .vredx d a o => { role := some .epilogue, mods := some [.wid, .sat, .sgn], modOk := (redMods (o.extractLsb' 0 4)), pred := true, perm := true, permA := true, permB := false, latency := 8, src := rv a, dst := rv d, lastA := some a.toNat }
  | .vscanx d a o => { role := some .epilogue, mods := some [.wid, .sat, .sgn], modOk := (redMods (o.extractLsb' 0 4)), pred := true, perm := true, permA := true, permB := false, latency := 8, src := rv a, dst := rv d, lastA := some a.toNat }
  | .velect k => { role := some .epilogue, mods := some [], pred := true, perm := true, permA := false, permB := false, latency := 8, dst := rk k }
  | .kand d a b => { role := some .epilogue, latency := 8, src := rk a ++ rk b, dst := rk d }
  | .kor d a b => { role := some .epilogue, latency := 8, src := rk a ++ rk b, dst := rk d }
  | .kxor d a b => { role := some .epilogue, latency := 8, src := rk a ++ rk b, dst := rk d }
  | .knot d a => { role := some .epilogue, latency := 8, src := rk a, dst := rk d }
  | .kmov d a => { role := some .epilogue, latency := 8, src := rk a, dst := rk d }
  | .kcnt s k => { role := some .epilogue, latency := 8, src := rk k, dst := rs s }
  | .kfirst s k => { role := some .epilogue, latency := 8, src := rk k, dst := rs s }
  | .ktos s k => { role := some .epilogue, latency := 8, src := rk k, dst := rs s }
  | .stok s k => { role := some .epilogue, latency := 8, src := rs s, dst := rk k }
  | .vpackb d a _ => { role := some .epilogue, mods := some [.sat, .sgn], pred := true, perm := true, permA := true, permB := false, latency := 8, src := rv a ++ rv d, dst := rv d, lastA := some a.toNat }
  | .vpackn d a _ => { role := some .epilogue, mods := some [.sat, .sgn], pred := true, perm := true, permA := true, permB := false, latency := 8, src := rv a ++ rv d, dst := rv d, lastA := some a.toNat }
  | .vpack6 d a _ => { role := some .epilogue, mods := some [.sat, .sgn], pred := true, perm := true, permA := true, permB := false, latency := 8, src := rv a ++ rv d, dst := rv d, lastA := some a.toNat }
  | .vunpk6 d a _ => { role := some .epilogue, mods := some [.sgn], pred := true, perm := true, permA := true, permB := false, latency := 8, src := rv a, dst := rv d, lastA := some a.toNat }
  | .vcmpr d a => { role := some .epilogue, mods := some [.wid], modOk := (fun h => h.wid ≤ 1), pred := true, perm := true, permA := true, permB := false, latency := 8, src := rv a, dst := rv d, lastA := some a.toNat }
  | .vxpnd d a => { role := some .epilogue, mods := some [.wid], modOk := (fun h => h.wid ≤ 1), pred := true, perm := true, permA := true, permB := false, latency := 8, src := rv a, dst := rv d, lastA := some a.toNat }
  | .tmma _ a b _ => { role := some .maths, src := rp a ++ rp b }
  | .tmmax _ a b _ => { role := some .maths, src := rp a ++ rp b }
  | .tzero _ => { role := some .maths }
  | .tfill _ a => { role := some .maths, src := rs a }
  | .tscale _ a b => { role := some .maths, src := rs a ++ rs b }
  | .tsmx _ a b => { role := some .maths, src := rs a ++ rs b }
  | .tdrain _ a b => { role := some .maths, src := rp a ++ rp b }
  | .tamaxr _ a => { role := some .maths, dst := rp a }
  | .tsider _ a b => { role := some .maths, src := rp b, dst := rp a }
  | .tsidew _ a b => { role := some .maths, src := rp a ++ rs b }
  | .tgang _ a => { role := some .maths, src := rs a }
  | .tfence => { role := some .maths }
  | .twait _ => { role := some .maths }
  | .cpy n c s _ _ => { role := some .copy, src := rd n ++ rp c ++ rp s }
  | .cpys n c s _ _ => { role := some .copy, src := rd n ++ rp c ++ rp s }
  | .cpyt n c s _ _ => { role := some .copy, src := rd n ++ rsn c.toNat 4 ++ rp s }
  | .cpym n c s _ _ => { role := some .copy, src := rd n ++ rsn c.toNat 4 ++ rp s }
  | .cpyr n c s _ _ => { role := some .copy, src := rd n ++ rsn c.toNat 4 ++ rp s }
  | .cpyg n c s _ _ => { role := some .copy, src := rd n ++ rsn c.toNat 4 ++ rp s }
  | .cpyp n c s _ => { role := some .copy, src := rd n ++ rp c ++ rp s }
  | .cpyw => { role := some .copy }
  | .cpyx c => { role := some .copy, dst := rp c }
  | .qpush _ s => { src := rs s }
  | .qpop _ s => { dst := rp s }
  | .qtry _ s => { dst := rp s }
  | .qrsv _ s => { dst := rs s }
  | .qcmt _ s => { src := rp s }
  | .qrel _ s => { src := rs s }
  | .qlen _ s => { dst := rs s }
  | .mbsend s _ => { src := rsn s.toNat 4, dst := rs s }
  | .mbrecv s _ => { dst := rsn s.toNat 4 }
  | .binit _ s => { src := rs s }
  | .barv _ => {}
  | .barw _ s o => { src := (if o = 1#1 then [] else rs s) }
  | .barx _ s _ => { src := rs s }
  | .bsync _ => {}
  | .bphase _ s => { dst := rp s }
  | .ggrow s _ _ _ => { dst := rs s }
  | .gleave => {}
  | .ginfo s _ => { dst := rs s }
  | .klaunch s _ => { src := rp s, dst := rp (s + 2) }
  | .sigadd s _ => { mods := some [.scope, .order], src := rsn s.toNat 4, dst := rp (s + 2) }
  | .sigwait s _ => { mods := some [.scope, .order], modOk := ordLoad, src := rsn s.toNat 4, dst := rp (s + 2) }
  | .rgclm s _ => { role := some .epilogue, dst := rs s }
  | .rggiv s _ => { role := some .epilogue, dst := rs s }
  | .rdef _ _ => { role := some .epilogue }
  | .rtag _ _ => { role := some .epilogue }
  | .rseal _ => { role := some .epilogue }
  | .rdrop _ => { role := some .epilogue }
  | .rfree _ => { role := some .epilogue }
  | .rgqry s => { role := some .epilogue, dst := rs s }
  | .fmtset _ s => { src := rs s }
  | .fmtget _ s => { dst := rs s }
  | .fmtchk _ s => { dst := rs s }
  | .vcvt d a _ _ => { role := some .epilogue, mods := some [.rnd, .sat], pred := true, src := rv a, dst := rv d, lastA := some a.toNat }
  | .vcvto d a _ _ => { role := some .epilogue, mods := some [.rnd, .sat], pred := true, src := rv a, dst := rv d ++ rk 7#3, lastA := some a.toNat }
  | .vcvts d a _ _ => { role := some .epilogue, pred := true, src := rv a, dst := rv d, lastA := some a.toNat }
  | .trap _ => {}
  | .assert s _ => { src := rs s }
  | .clkr s _ => { dst := rp s }
  | .featr s _ => { dst := rs s }
  | .sleep _ => {}
  | .csrd s _ => { dst := rs s }
  | .cswr s _ => { src := rs s }
  | .sampm _ => {}
  | .bkpt _ => {}
  | .hsch _ _ _ _ _ _ _ _ _ _ => {}
  | .himm _ => {}
  | .himmx _ => {}
  | .hmod _ _ _ _ _ _ _ _ _ _ _ _ => {}
  | .hpred _ _ => {}
  | .hperm _ _ _ _ _ => {}
  | .unassignedEncoding _ => {}
  | .registerArbiter _ => {}
  | .fragmentPromotion _ _ => {}
  | .sleepExpire _ _ => {}
  | .formatUpdateComplete _ _ _ => {}
  | .tileOpComplete _ => {}
  | .copyOwnershipGrant _ => {}
  | .copyStart _ => {}
  | .copyComplete _ _ => {}
  | .storeBufferTimeout _ => {}
  | .promotionDrainRequest _ => {}
  | .promotionDrainReply _ => {}
  | .flowMessageArrival _ => {}
  | .flowAcknowledgement _ => {}
  | .peerRefusal _ => {}
  | .permitReturn _ _ => {}
  | .permitAudit _ _ _ _ _ => {}
  | .linkError _ => {}
  | .linkTrainingDone _ _ => {}
  | .linkTrainingFail _ => {}
  | .linkEnable _ => {}
  | .linkDisable _ => {}
  | .remoteWaitThreshold _ _ => {}
  | .hostMemAccess _ _ _ => {}
  | .backInvalidateResponse _ => {}
  | .messageReceivable _ => {}
  | .placementAttempt _ => {}
  | .eviction _ => {}
  | .phaseRecordComplete _ => {}
  | .groupRestore _ => {}
  | .attachServed _ _ => {}
  | .groupRetire _ => {}
  | .preemptLate _ => {}
  | .hung _ => {}
  | .evthAfterEviction _ => {}
  | .sigwaitPoll _ _ => {}
  | .packetRead _ _ _ => {}
  | .dependencePoll _ _ _ => {}
  | .packetBarrier _ _ _ => {}
  | .launch _ _ _ => {}
  | .signal _ _ _ => {}
  | .shootdown _ _ _ => {}
  | .shootdownComplete _ _ _ => {}
  | .gridComplete _ => {}
  | .heldRecordRetry _ _ => {}
  | .create _ _ _ => {}
  | .save _ _ => {}
  | .saveComplete _ _ => {}
  | .resume _ _ => {}
  | .destroy _ _ => {}
  | .destroyComplete _ _ => {}
  | .faultAnswerResume _ _ _ => {}
  | .faultAnswerSkip _ _ _ => {}
  | .faultAnswerKill _ _ _ => {}
  | .pagerDoorbellRetry _ _ _ => {}
  | .pagerDoorbellRefuse _ _ _ => {}
  | .debugKill _ _ => {}
  | .partqWrite _ => {}
  | .mbcfgWrite _ _ => {}
  | .accessTableWrite _ _ _ => {}
  | .start _ => {}
  | .kernelCommit _ _ _ => {}
  | .kernelWithdraw _ _ _ => {}
  | .queueEnable _ _ _ _ => {}
  | .queueDisable _ _ _ _ => {}
  | .wptr _ _ _ _ => {}
  | .smpcfg _ _ => {}
  | .samplerCounterClear _ _ _ => {}
  | .firmwareStage _ => {}
  | .securityVersionRaise _ => {}
  | .getMeasurements => {}
  | .registerWrite _ _ _ _ => {}
  | .sampleTick _ => {}
  | .sensorRead _ => {}
  | .clockRaise _ => {}
  | .patrolScrub _ _ => {}
  | .eccCorrectable _ _ => {}
  | .eccUncorrectable _ _ _ => {}
  | .reset => {}
  | .instructionFetch => {}
  | .lineRequestComplete _ _ _ => {}
  | .preemptionWithdraw _ => {}

end Sys2Proof.Machine
end

