-- ==== Sys2Proof/Machine/Access.lean ====
section
/-! DEFINITION. Buffer records (R207 to R211), and resolving the lanes of an access before any lane performs it (R224). -/

namespace Sys2Proof.Machine

/-! ### Buffer records -/

/-- The fields of a buffer record (R207, R208). -/
structure Buf where
  clmp : Bool
  imm  : Bool
  ro   : Bool
  swz  : Nat
  base : Nat
  esz  : Nat
  str  : Nat
  ext  : Nat
  deriving DecidableEq, Repr

def Buf.of (r : BitVec 128) : Buf :=
  let x := r.toNat
  { clmp := x.testBit 63, imm := x.testBit 62, ro := x.testBit 61, swz := field x 57 4, base := field x 0 57,
    esz := field x 120 3, str := field x 96 24, ext := field x 64 32 }

/-- The record of the fields. -/
def Buf.word (b : Buf) : BitVec 128 :=
  BitVec.ofNat 128 (b.base + b.swz * 2 ^ 57 + (if b.ro then 2 ^ 61 else 0) + (if b.imm then 2 ^ 62 else 0) +
    (if b.clmp then 2 ^ 63 else 0) + b.ext * 2 ^ 64 + b.str * 2 ^ 96 + b.esz * 2 ^ 120)

/-- A record that is not well-formed (R209). -/
def bufMalformed (r : BitVec 128) : Bool :=
  let b := Buf.of r
  field r.toNat 123 5 != 0 || decide (6 ≤ b.esz) || decide (4 ≤ b.swz) ||
    (b.swz == 3 && (b.str == 0 || b.str % 8 != 0))

/-- The element size in bytes. -/
def Buf.elem (b : Buf) : Nat := 2 ^ b.esz

/-- The distance between elements without swizzle 3 (R210). -/
def Buf.stride (b : Buf) : Nat := if b.str = 0 then b.elem else b.str

/-- The address of element `i` (R210). -/
def Buf.addr (b : Buf) (i : Nat) : Nat :=
  let o :=
    if b.swz = 3 then
      let w := b.str
      let r := i / w
      let c := i % w
      ((r / 8 * (w / 8) + c / 8) * 64 + r % 8 * 8 + c % 8) * b.elem
    else
      let o := i * b.stride
      if b.swz = 1 then o ^^^ (o / 2 ^ 7 % 8 * 16)
      else if b.swz = 2 then o ^^^ (o / 2 ^ 8 % 16 * 16)
      else o
  vaMask (b.base + o)

/-- What the checks 1 to 4 of R211 find for one lane. -/
inductive LaneCheck where
  | bounds
  | clamped
  | align (va : Nat)
  | readOnly (va : Nat)
  | want (va : Nat)
  deriving DecidableEq, Repr

/-- The checks of R211 before translation, for an access of `z` bytes to element `i`. -/
def Buf.check (b : Buf) (z i : Nat) (write : Bool) : LaneCheck :=
  if b.elem < z then .bounds
  else if b.ext ≤ i then (if b.clmp then .clamped else .bounds)
  else
    let va := b.addr i
    if va % z ≠ 0 then .align va
    else if write && (b.ro || b.imm) then .readOnly va
    else .want va

/-! ### Resolving lanes (R224) -/

/-- A lane's access: the lane, its element index and size, and its address with what translation finds. -/
structure LaneState where
  lane : Nat
  idx  : Nat
  size : Nat
  chk  : LaneCheck
  xlat : Option Xlat
  deriving DecidableEq, Repr

/-- Translates the lanes that pass the first checks (R224). -/
def State.laneStates (s : State) (m : Master) (c : Ctx) (b : Buf) (z : Nat) (write : Bool)
    (lanes : List (Nat × Nat)) : List LaneState :=
  lanes.map (fun (L, i) =>
    let chk := b.check z i write
    let x := match chk with
      | .want va => some (s.translate m c (if write then .write else .read) va)
      | _ => none
    { lane := L, idx := i, size := z, chk := chk, xlat := x })

/-- The fault of one lane, with its rank: BOUNDS before ALIGN before PROT (R224, R225). -/
def LaneState.fault (l : LaneState) : Option (Nat × Trap) :=
  match l.chk, l.xlat with
  | .bounds, _ => some (0, { code := .bounds, detail := BitVec.ofNat 32 l.idx })
  | .align va, _ => some (1, { code := .align, addr := BitVec.ofNat 64 va })
  | .readOnly va, _ => some (2, { code := .prot, aux := 3, addr := BitVec.ofNat 64 va })
  | .want va, some (.prot cause) => some (2, { code := .prot, aux := BitVec.ofNat 32 cause, addr := BitVec.ofNat 64 va })
  | _, _ => none

/-- The trap of an access (R224 step 1): every faulting lane, with the fault of highest priority and its lowest lane. -/
def accessTrap (ls : List LaneState) : Option Trap :=
  let fs : List (Nat × Nat × Trap) := ls.filterMap (fun l => l.fault.map (fun f => (l.lane, f.1, f.2)))
  let first : Option (Nat × Nat × Trap) :=
    [0, 1, 2].findSome? (fun rank => fs.find? (fun f => f.2.1 == rank))
  first.map (fun f => { f.2.2 with lanes := some (maskOf (fun L => fs.any (fun f => f.1 == L))) })

/-- The lanes that wait on a page: lane, address, and whether a write met a migrating page. -/
def waitLanes (ls : List LaneState) : List (Nat × Nat × Bool) :=
  ls.filterMap (fun l => match l.chk, l.xlat with
    | .want va, some (.waits mig) => some (l.lane, va, mig)
    | _, _ => none)

/-- The pages on which lanes wait (R224): a refusal of one faults its lanes, with the address of the lowest. -/
def pageJoins (ls : List (Nat × Nat × Bool)) (src : Nat) (wr : Bool) : List Join :=
  (distinct (ls.map (fun l => l.2.1 / 4096))).map (fun page =>
    let here := ls.filter (fun l => l.2.1 / 4096 == page)
    { n := none, page := page, mig := here.any (fun l => l.2.2), expl := false, wr := wr, src := src, aux := 5,
      addr := BitVec.ofNat 64 ((here.head?.map (fun l => l.2.1)).getD 0),
      lanes := some (maskOf (fun L => here.any (fun l => l.1 == L))), rpl := none })

/-- The lanes that perform: lane, address and key. -/
def performLanes (ls : List LaneState) : List (Nat × Nat × Nat) :=
  ls.filterMap (fun l => match l.chk, l.xlat with
    | .want va, some (.ok key) => some (l.lane, va, key)
    | _, _ => none)

/-- The bytes that the lanes access: key and number. -/
def laneBytes (ls : List LaneState) : List (Nat × Nat) :=
  ls.filterMap (fun l => match l.chk, l.xlat with
    | .want _, some (.ok key) => some (key, l.size)
    | _, _ => none)

def anyNowhere (ls : List LaneState) : Bool := ls.any (fun l => l.xlat == some .nowhere)

/-- The entry of the page table for which some lane's walk waits. -/
def stalledWalk (ls : List LaneState) : Option Nat :=
  ls.findSome? (fun l => match l.xlat with
    | some (.stalled key) => some key
    | _ => none)

/-! ### Lines that an access must wait for -/

/-- The kinds of global access, for the waits at the home. -/
structure Visit where
  core     : Nat
  scope    : Nat
  /-- An acquire load or any atomic: a promoting read (R267). -/
  promotes : Bool
  /-- A store, which waits in its store buffer and not at the instruction. -/
  buffered : Bool := false
  deriving DecidableEq, Repr

/-- What an access to a line of device memory waits for at the home slice: a copy that owns it (R320), the host's
response to a snoop (R440), or the drain of a release tag (R268). -/
def State.lineWait (s : State) (v : Visit) (line : Nat) : Option Wait :=
  if s.copyOwns line then some (.line line)
  else if s.hostHeld.contains line then some (.snoop line)
  else if (s.tagsOf line).any (fun t => v.promotes && t.core != v.core && decide (t.scope < v.scope)) then some (.promotion line)
  else none

/-- A promoting read sends the drain request of the tags that it meets, and a line that leaves the L2 asks for the drain of its
tags (R268). -/
def State.requestDrain (s : State) (line : Nat) : State :=
  { s with tags := s.tags.map (fun t => if t.line == line then { t with draining := true } else t) }

/-- The first wait among the lines of keys. -/
def State.linesWait (s : State) (v : Visit) (keys : List Nat) : Option (State × Wait) :=
  if v.buffered then none
  else match (keys.filter (· < spaceSize)).findSome? (fun k => s.lineWait v (lineOf k)) with
  | none => none
  | some (.promotion l) => some (s.requestDrain l, .promotion l)
  | some w => some (s, w)

/-- Whether some key is homed away from a die. -/
def anyAway (die : Nat) (keys : List Nat) : Bool := keys.any (away die)

/-- The lanes whose line is homed away from a die. -/
def awayLanes (die : Nat) (ls : List LaneState) : List (Nat × Nat × Nat) := (performLanes ls).filter (fun p => away die p.2.2)

/-! ### Stops, and settling an access -/

/-- Why an instruction does not complete at this issue: it takes an exception (in a state of its own when something
took effect before, as in R144), it waits (with the state that the wait leaves), or the machine stops. -/
inductive Stop where
  | trap (t : Trap)
  | trapAt (s : State) (t : Trap)
  | wait (s : State) (w : Wait)
  | halt (f : Fault)

/-- Who accesses global memory: the issuer, its engine (R392), and what the fragment's earlier waits left (R245, R445). -/
structure Agent where
  from_   : Sender
  frag    : FragRef
  eng     : Nat
  granted : Bool
  denied  : Word
  deriving DecidableEq, Repr

abbrev Agent.core (a : Agent) : Nat := a.from_.core
abbrev Agent.part (a : Agent) : Nat := a.from_.part
abbrev Agent.slot (a : Agent) : Nat := a.from_.ctx
abbrev Agent.group (a : Agent) : Nat := a.from_.group

/-- The die on which the issuer sits. -/
def Agent.die (a : Agent) : Nat := dieOf a.core

def Agent.master (a : Agent) : Master := { part := a.part, slot := a.slot, eng := a.eng, core := a.core }

/-- The sender of one lane's access. -/
def Agent.sender (a : Agent) (op : Nat) (lanes : Word) (va : Nat) : Sender := { a.from_ with op := op, lanes := lanes, va := va }

/-- The addresses that lanes translate. -/
def wantedVas (ls : List LaneState) : List Nat := ls.filterMap (fun l => match l.chk with | .want va => some va | _ => none)

/-- The requests for lines away from the issuer's die, one for each line (R212, R273). -/
def State.sendReads (s : State) (a : Agent) (lanes : List (Nat × Nat × Nat)) (kind : MsgKind) : State :=
  (distinct (lanes.map (fun l => lineOf l.2.2))).foldl (fun s' line =>
    match lanes.find? (fun l => lineOf l.2.2 == line) with
    | some l => s'.send 0 (a.sender s.fresh 0 l.2.1) 0 (128 * line) [] kind
    | none => s') { s with fresh := s.fresh + 1 }

/-- Whether an instruction that another fragment of the warp issued earlier is still to access some bytes: a warp's accesses to the
same bytes act in issue order (R220, R262). -/
def State.accessAhead (s : State) (r : FragRef) (bytes : List (Nat × Nat)) : Bool :=
  match s.warp? r.warp with
  | none => false
  | some w =>
    let mine := ((w.frag? r.frag).bind Frag.latch).map Latch.stamp
    w.frags.any (fun f => f.id != r.frag && f.latch.any (fun l => mine.all (fun n => decide (l.stamp < n))) &&
      f.bytes.any (fun x => bytes.any (fun y => rangesMeet x.1 x.2 y.1 y.2)))

/-- A fragment's access is to some bytes. -/
def State.noteBytes (s : State) (r : FragRef) (bytes : List (Nat × Nat)) : State :=
  match s.warp? r.warp with
  | none => s
  | some w =>
    match w.frag? r.frag with
    | none => s
    | some f => s.setWarp (w.setFrag { f with bytes := bytes })

/-- A wait of an access to some bytes. -/
def Stop.noting (r : FragRef) (bytes : List (Nat × Nat)) : Stop → Stop
  | .wait s w => .wait (s.noteBytes r bytes) w
  | e => e

/-- What lanes that have translated wait for: earlier accesses of the warp to the same bytes, a line, or a reply from another die, the
host or a peer. `reads`: the access returns data, so that such a reply is waited for (R15, R445). -/
def State.settleHomes (s : State) (a : Agent) (ls : List LaneState) (v : Visit) (reads : Bool) : Except Stop State :=
  if s.accessAhead a.frag (laneBytes ls) then .error (.wait s .access)
  else match s.linesWait v ((performLanes ls).map (fun p => p.2.2)) with
    | some (s, w) => .error (.wait s w)
    | none =>
      if reads && anyAway a.die ((performLanes ls).map (fun p => p.2.2)) && !a.granted then
        .error (.wait (s.sendReads a (awayLanes a.die ls) (.read a.frag)) (.remote s.ticks false false (awayLanes a.die ls)))
      else .ok s

/-- The reads of the walks for an access cross to the homes of the table entries, or the access waits for their permits (R236, R273,
R442). -/
def State.sendWalks (s : State) (a : Agent) (k : Access) (vas : List Nat) : Except Stop State :=
  match s.ctx? a.part a.slot with
  | none => .ok s
  | some c =>
    let keys := s.walksKeys a.master c k vas
    match s.crossReads a.from_ keys with
    | some s => .ok s
    | none => .error (.wait s (.walk keys))

/-- Resolves the lanes of an access before any of them performs (R224): a fault, a wait on the pager, a wait at a home, or nothing. -/
def State.settle (s : State) (a : Agent) (ls : List LaneState) (v : Visit) (write reads : Bool) : Except Stop State :=
  if anyNowhere ls then .error (.halt .noSuchPhysicalAddress)
  else
    match accessTrap ls, stalledWalk ls with
    | some t, _ => .error (.trap (if write then { t with stale := (wantedVas ls).map (fun va => (.write, va)) } else t))
    | none, some key => .error (.wait s (.walk [key]))
    | none, none =>
      match s.sendWalks a (if write then .write else .read) (wantedVas ls) with
      | .error e => .error e
      | .ok s =>
        let s := if write then s.forget a.master ((wantedVas ls).map (fun va => (.write, va))) else s
        let pages := waitLanes ls
        if pages.isEmpty = false then
          let (s, w) := s.waitOnPages a.part a.slot (pageJoins pages a.core write)
          .error (.wait s w)
        else match s.settleHomes a ls v reads with
          | .ok s => .ok s
          | .error e => .error (e.noting a.frag (laneBytes ls))

/-- The bytes that each performing lane reads, as numbers (R2); zero where a peer refused the read (R444). -/
def State.loadLanes (s : State) (a : Agent) (z : Nat) (ls : List LaneState) : List (Nat × Nat) :=
  (performLanes ls).map (fun p =>
    (p.1, if a.denied.getLsbD p.1 && decide (2 * spaceSize ≤ p.2.2) then 0 else natLE (s.readGlobal a.core p.2.2 z)))

/-- The value of a lane in a list of lane values; zero when it has none. -/
def laneNat (vs : List (Nat × Nat)) (L : Nat) : Nat := ((vs.find? (fun p => p.1 == L)).map Prod.snd).getD 0

/-- The bytes of a size code, and its extension to 32 bits (R43, R215). -/
def sizeBytes (z : Nat) : Nat :=
  match z with
  | 0 => 1 | 1 => 1 | 2 => 2 | 3 => 2 | 4 => 4 | 5 => 8 | _ => 16

def extendSize (z x : Nat) : Nat :=
  match z with
  | 1 => wrapTo 32 (signedOf 8 x)
  | 3 => wrapTo 32 (signedOf 16 x)
  | _ => x

end Sys2Proof.Machine
end

