-- ==== Sys2Proof/Machine/Pool.lean ====
section
/-! DEFINITION. How an instruction stops short of completing, and register budgets: pools, claims and drops
(R116 to R123, R128). -/

namespace Sys2Proof.Machine

/-! ### Pools (R119, R120) -/

def State.kdOf (s : State) (g : Group) : Option KernelDesc := (s.grid? g.grid).map Grid.kd

/-- The vat granules occupied on a core (R9, R368). -/
def State.occupied (s : State) (core : Nat) : Nat :=
  s.groups.foldl (fun a g =>
    match s.kdOf g with
    | some kd => g.places.foldl (fun a p => if p.core = core then a + kd.sp + kd.ts + p.granules else a) a
    | none => a) 0

def State.freeGranules (s : State) (core : Nat) : Nat := 96 - s.occupied core

/-- The steps reserved by the budgets of a group's epilogue warps at a span position. -/
def State.reserved (s : State) (g : Group) (pos : Nat) : Nat :=
  s.warps.foldl (fun a w => if w.group = g.uid ∧ w.pos = pos ∧ w.role = .epilogue then a + w.budget else a) 0

def Group.granulesAt (g : Group) (pos : Nat) : Nat := ((g.places[pos]?).map Place.granules).getD 0

/-- The unreserved steps of a pool. -/
def State.unreserved (s : State) (g : Group) (pos : Nat) : Nat := 64 * g.granulesAt pos - s.reserved g pos

/-- The pool takes whole free granules, one at a time, for as long as a claim of `need` steps needs them (R120). -/
def State.growPool (s : State) (g : Group) (pos need : Nat) : State × Group :=
  let short := need - s.unreserved g pos
  let n := min ((short + 63) / 64) (s.freeGranules (g.coreAt pos))
  match g.places[pos]? with
  | some p =>
    if n = 0 then (s, g)
    else
      let g' := g.setPlace pos { p with granules := p.granules + n }
      (s.setGroup g', g')
  | none => (s, g)

/-! ### Claims (R121, R122) -/

/-- A waiting claim: its stamp, its warp and fragment, the steps, where an explicit claim puts its result, and the slot whose
replay made it. -/
structure Claim where
  stamp : Nat
  ref   : FragRef
  steps : Nat
  dest  : Option Nat
  rpl   : Option Nat
  names : List Nat
  deriving DecidableEq, Repr

def Frag.claim? (w : Warp) (f : Frag) : Option Claim :=
  match f.wait with
  | .claim n d st rpl ns => some { stamp := st, ref := { warp := w.uid, frag := f.id }, steps := n, dest := d, rpl := rpl, names := ns }
  | _ => none

/-- The claims that wait on a pool, oldest first. -/
def State.claimsOn (s : State) (g : Group) (pos : Nat) : List Claim :=
  sortBy Claim.stamp ((s.warps.filter (fun w => w.group == g.uid && w.pos == pos)).flatMap (fun w => w.frags.filterMap (Frag.claim? w)))

/-- Claims `n` steps for a warp at once, or not at all: a younger claim is not granted while an older one waits. -/
def State.tryClaim (s : State) (w : Warp) (n : Nat) : State × Bool :=
  match s.group? w.group with
  | none => (s, false)
  | some g =>
    if (s.claimsOn g w.pos).isEmpty then
      let (s', g') := s.growPool g w.pos n
      (s', decide (n ≤ s'.unreserved g' w.pos))
    else (s, false)

/-- The HSCH words of a chain as three shares of coverage (R51). -/
def hschCover : Instr → Option (List Cover)
  | .hsch a b c d e f g h j y =>
    some [{ stall := a.toNat, lastA := b == 1#1, lastB := c == 1#1, yield := false },
      { stall := d.toNat, lastA := e == 1#1, lastB := f == 1#1, yield := false },
      { stall := g.toNat, lastA := h == 1#1, lastB := j == 1#1, yield := y == 1#1 }]
  | _ => none

/-- The coverage in force for the instruction about to issue: the chain's HSCH, else what an earlier one left. -/
def Frag.covering (f : Frag) : List Cover := (f.chain.findSome? hschCover).getD f.cover

/-- The fragment past its completed instruction: the next word, one share of coverage used up (R51). -/
def Frag.complete (f : Frag) : Frag :=
  { f with pc := f.skip, head := f.skip, chain := [], cover := f.covering.tail, wait := .none,
           granted := false, denied := 0, arrived := none, readyFor := 0, promoted := none, latch := none, bytes := [] }

/-- The fragment after a wait: an instruction that issued goes on with its operands, any other re-executes its unit (R49). -/
def Frag.retry (f : Frag) : Frag :=
  if f.latch.isSome then { f with wait := .none } else { f.atHead with wait := .none, cover := f.cover }

/-- The fragment whose implicit claim is met: its write proceeds, with the registers of these names set aside (R122). -/
def Frag.roomMade (f : Frag) (names : List Nat) : Frag :=
  { f.retry with latch := f.retry.latch.map (fun l => { l with room := l.room ++ names }) }

/-- The vector name of a register. -/
def Reg.name : Reg → Option Nat
  | .v n => some n
  | _ => none

/-- What writes do to the instructions of the warp's other fragments that issued earlier and wait: those write no more to the bits
and lanes written, and their last-read marks free none of the names written (R53, R113, R190). -/
def Warp.superseded (w : Warp) (frag : Nat) (stamp : Option Nat) (writes : List (Reg × Word)) (names : List Nat) : Warp :=
  { w with frags := w.frags.map (fun (f : Frag) =>
      match f.latch with
      | none => f
      | some l =>
        if f.id = frag ∨ stamp.any (fun n => decide (n < l.stamp)) = true then f
        else { f with latch := some { l with
          lost := l.lost ++ writes.filter (fun r => l.owed.any (fun o => o.1 == r.1))
          marks := l.marks.filter (fun n => !names.contains n) } }) }

/-- The fragment past an instruction that issued and waited, and its warp after that one's writes (R113) and the names that
its last-read marks free (R53). -/
def Warp.finishing (w : Warp) (f : Frag) (regs : Warp → Warp) : Warp :=
  let v := ((f.latch.map Latch.marks).getD []).foldl Warp.unmapV (Warp.landing f w (regs w))
  let owed := (f.latch.map Latch.owed).getD []
  (v.superseded f.id (f.latch.map Latch.stamp) owed (owed.filterMap (fun o => o.1.name))).setFrag f.complete

/-- Grants waiting claims of a pool, oldest first, for as long as the oldest fits (R121): an explicit claim completes its
`RGCLM` (R125), an implicit one lets its write proceed (R122). The budget never rises above 16 (log entry 68). -/
def grantClaims : Nat → State → Nat → Nat → State
  | 0, s, _, _ => s
  | n + 1, s, gid, pos =>
    match s.group? gid with
    | none => s
    | some g =>
      match s.claimsOn g pos with
      | [] => s
      | c :: _ =>
        let (s, g) := s.growPool g pos c.steps
        if s.unreserved g pos < c.steps then s
        else match s.warp? c.ref.warp with
          | none => s
          | some w =>
            match w.frag? c.ref.frag with
            | none => s
            | some f =>
              let w := { w with budget := min 16 (w.budget + c.steps) }
              let w := match c.dest with
                | some d => w.finishing f (fun w => w.setS d (BitVec.ofNat 32 w.budget))
                | none => w.setFrag (f.roomMade c.names)
              grantClaims n (s.setWarp w) gid pos

/-- The claims that wait on a device. -/
def State.claims (s : State) : Nat := (s.warps.flatMap (fun w => w.frags.filterMap (Frag.claim? w))).length

/-- Waiting claims of every pool of a core, after steps or granules return (R121). Several pools of one core take granules in
the order of the list of groups (log entry 68). -/
def State.grantOnCore (s : State) (core : Nat) : State :=
  (s.groups.flatMap (fun g => (List.range g.span).filterMap (fun p => if g.coreAt p = core then some (g.uid, p) else none))).foldl
    (fun s gp => grantClaims s.claims s gp.1 gp.2) s

/-! ### Recipe slots as the budget sees them (R118, R131, R132) -/

/-- Whether a slot is bound to a register. -/
def Slot.bound (x : Slot) : Bool := x.state == .live || x.state == .dropped

/-- The vector names of a slot's bound register. -/
def Slot.names (x : Slot) : List Nat := if x.w64 then [x.vd, x.vd + 1] else [x.vd]

def Warp.slot? (w : Warp) (n : Nat) : Slot := w.slots.getD n Slot.none
def Warp.setSlot (w : Warp) (n : Nat) (x : Slot) : Warp := { w with slots := w.slots.setIfInBounds n x }

/-- The slot bound to a vector name. -/
def Warp.tagOf (w : Warp) (name : Nat) : Option Nat :=
  (List.range 16).find? (fun n => (w.slot? n).bound && (w.slot? n).names.contains name)

/-- The slots in a state, ascending by tag time. -/
def Warp.slotsIn (w : Warp) (p : Slot → Bool) : List Nat :=
  sortBy (fun n => (w.slot? n).tagSeq) ((List.range 16).filter (fun n => p (w.slot? n)))

/-- A drop (R132): the names become unmapped, and the slot is Dropped. -/
def Warp.dropSlot (w : Warp) (n : Nat) : Warp :=
  let x := w.slot? n
  (x.names.foldl Warp.unmapV w).setSlot n { x with state := .dropped }

/-- The oldest tagged register that holds a value, by tag time, outside the excluded slots. -/
def Warp.oldestLive (w : Warp) (excl : List Nat) : Option Nat :=
  (w.slotsIn (fun x => x.state == .live)).find? (fun n => !excl.contains n)

/-- Room for the registers of some names (R122): drops of tagged registers outside the excluded slots first, then claims of one step
each. -/
def makeRoom : Nat → State → Nat → List Nat → List Nat → Except Stop State
  | 0, s, _, _, _ => .ok s
  | fuel + 1, s, uid, names, excl =>
    match s.warp? uid with
    | none => .ok s
    | some w =>
      if w.heldWith names ≤ 8 * w.budget then .ok s
      else match w.oldestLive excl with
        | some n => makeRoom fuel (s.setWarp (w.dropSlot n)) uid names excl
        | none =>
          match s.tryClaim w 1 with
          | (s, true) => makeRoom fuel (s.setWarp { w with budget := w.budget + 1 }) uid names excl
          | (s, false) =>
            let (st, s) := s.takeFresh
            .error (.wait s (.claim 1 none st none names))

end Sys2Proof.Machine
end

