-- ==== Sys2Proof/Machine/Values.lean ====
section
/-! DEFINITION. What each scalar and integer-vector instruction computes from its operand values: class 0x0 (R152 to R155)
on a word or a pair, class 0x3 (R172 to R178) on one lane. The meanings and the evaluation of recipe bodies (R142) share
these functions. `d` is the old value of the destination. -/

namespace Sys2Proof.Machine

/-! ### Class 0x0 (R152) -/

def saddV (a b _d : Word) : Word := a + b
def ssubV (a b _d : Word) : Word := a - b
def smulV (a b _d : Word) : Word := a * b
def smulhiV (a b _d : Word) : Word := BitVec.ofInt 32 (a.toInt * b.toInt / (2 ^ 32 : Nat))
def smulhuV (a b _d : Word) : Word := BitVec.ofNat 32 (a.toNat * b.toNat / 2 ^ 32)
def smadV (a b d : Word) : Word := d + a * b
def sandV (a b _d : Word) : Word := a &&& b
def sorV (a b _d : Word) : Word := a ||| b
def sxorV (a b _d : Word) : Word := a ^^^ b
def sandnV (a b _d : Word) : Word := a &&& ~~~b
def sshlV (a b _d : Word) : Word := a <<< (b.toNat % 32)
def sshrV (a b _d : Word) : Word := a >>> (b.toNat % 32)
def ssraV (a b _d : Word) : Word := a.sshiftRight (b.toNat % 32)
def srolV (a b _d : Word) : Word := a.rotateLeft (b.toNat % 32)
def sminV (a b _d : Word) : Word := if a.slt b then a else b
def smaxV (a b _d : Word) : Word := if a.slt b then b else a
def sminuV (a b _d : Word) : Word := if a.ult b then a else b
def smaxuV (a b _d : Word) : Word := if a.ult b then b else a
def smovV (a _b _d : Word) : Word := a
def sclzV (a _b _d : Word) : Word := BitVec.ofNat 32 (leadingZeros a.getLsbD 32)
def spopcV (a _b _d : Word) : Word := BitVec.ofNat 32 (popCount a)
def sbfeV (a b _d : Word) : Word := bitExtract a b
def sbfiV (a b d : Word) : Word := bitInsert d a b
/-- `SMOVHI`: `a` is the immediate. -/
def smovhiV (a _b d : Word) : Word := (a.extractLsb' 0 16 : BitVec 16) ++ (d.extractLsb' 0 16 : BitVec 16)

/-- Division (R154). -/
def sdivV (a b _d : Word) : Word :=
  if b = 0 then 0xFFFFFFFF else if a = 0x80000000 ∧ b = 0xFFFFFFFF then 0x80000000 else BitVec.ofInt 32 (a.toInt.tdiv b.toInt)
def sdivuV (a b _d : Word) : Word := if b = 0 then 0xFFFFFFFF else BitVec.ofNat 32 (a.toNat / b.toNat)
def sremV (a b _d : Word) : Word :=
  if b = 0 then a else if a = 0x80000000 ∧ b = 0xFFFFFFFF then 0 else BitVec.ofInt 32 (a.toInt.tmod b.toInt)
def sremuV (a b _d : Word) : Word := if b = 0 then a else BitVec.ofNat 32 (a.toNat % b.toNat)

/-- The carry out of `SADDC` and the borrow of `SSUBB` (R152). -/
def saddcV (a b : Word) (c : Bool) : Word × Bool :=
  let t := a.toNat + b.toNat + (if c then 1 else 0)
  (BitVec.ofNat 32 t, decide (2 ^ 32 ≤ t))
def ssubbV (a b : Word) (c : Bool) : Word × Bool :=
  (a - b - (if c then 1 else 0), decide (a.toNat < b.toNat + (if c then 1 else 0)))

/-- Pairs (R155). -/
def sadd64V (a b : Dword) : Dword := a + b
def ssub64V (a b : Dword) : Dword := a - b
def sshl64V (a b : Dword) : Dword := a <<< (b.toNat % 64)
def sshr64V (a b : Dword) : Dword := a >>> (b.toNat % 64)

/-! ### Class 0x3, one lane (R173) -/

abbrev LaneFn := HMod → Word → Word → Word → Word

def vaddV : LaneFn := fun h => intLane h h.sgn (fun _ a b _ => a + b)
def vavgV : LaneFn := fun h => intLane h h.sgn (fun _ a b _ => (a + b + 1) / 2)
def vsubV : LaneFn := fun h => intLane h h.sgn (fun _ a b _ => a - b)
def vmulV : LaneFn := fun h => intLane h h.sgn (fun _ a b _ => a * b)
def vmulhiV : LaneFn := fun h => intLane h true (fun w a b _ => a * b / (2 ^ w : Nat))
def vmulhuV : LaneFn := fun h => intLane h false (fun w a b _ => a * b / (2 ^ w : Nat))
def vmadV : LaneFn := fun h => intLane h h.sgn (fun _ a b d => d + a * b)
def vandV : LaneFn := fun h => intLane h false (fun _ a b _ => bitwise (· &&& ·) a b)
def vorV : LaneFn := fun h => intLane h false (fun _ a b _ => bitwise (· ||| ·) a b)
def vxorV : LaneFn := fun h => intLane h false (fun _ a b _ => bitwise (· ^^^ ·) a b)
def vandnV : LaneFn := fun h => intLane h false (fun w a b _ => bitwise (fun x y => x &&& (2 ^ w - 1 - y)) a b)
def vshlV : LaneFn := fun h => intLane h false (fun w a b _ => a * (2 ^ subShift w b : Nat))
def vshrV : LaneFn := fun h => intLane h false (fun w a b _ => a / (2 ^ subShift w b : Nat))
def vsraV : LaneFn := fun h => intLane h true (fun w a b _ => a / (2 ^ subShift w b : Nat))
def vminV : LaneFn := fun h => intLane h true (fun _ a b _ => min a b)
def vmaxV : LaneFn := fun h => intLane h true (fun _ a b _ => max a b)
def vminuV : LaneFn := fun h => intLane h false (fun _ a b _ => min a b)
def vmaxuV : LaneFn := fun h => intLane h false (fun _ a b _ => max a b)
def vabsdV : LaneFn := fun h => intLane h h.sgn (fun _ a b _ => ((a - b).natAbs : Nat))
def vsadV : LaneFn := sadLane
def vmovV : LaneFn := fun h => intLane h false (fun _ a _ _ => a)
def vclzV : LaneFn := fun h => intLane h false (fun w a _ _ => (leadingZeros a.toNat.testBit w : Nat))
def vpopcV : LaneFn := fun h => intLane h false (fun w a _ _ => (onesBelow a.toNat.testBit w : Nat))
def vbfeV : LaneFn := fun _ a b _ => bitExtract a b
def vbfiV : LaneFn := fun _ a b d => bitInsert d a b
/-- `VMOVI` and `VMOVS`: `b` is the broadcast value (R177). -/
def vbroadV : LaneFn := fun _ _ b _ => b
def vadd64V (a b : Dword) : Dword := a + b
def vsub64V (a b : Dword) : Dword := a - b

/-! ### Class 0x4, one element (R181): the rounding mode, the flush bit, the draw, the operands and vd -/

abbrev ElemFn := Fmt → Nat → Bool → Nat → Nat → Nat → Nat → Coded

def vfaddV : ElemFn := fun f rnd fz R a b _ => fpAdd f rnd fz R a b
/-- Subtraction adds the negated `b`; a NaN keeps its own sign (R89). -/
def vfsubV : ElemFn := fun f rnd fz R a b _ =>
  match nanOf f [a, b] with
  | some (c, fl) => ⟨c, fl⟩
  | none => fpAdd f rnd fz R a (signMods f false true b)
def vfmulV : ElemFn := fun f rnd fz R a b _ => fpMul f rnd fz R a b
def vfmaV : ElemFn := fun f rnd fz R a b c => fpFma f rnd fz R a b c
def vfminV : ElemFn := fun f _ fz _ a b _ => fpMinMax false f fz a b
def vfmaxV : ElemFn := fun f _ fz _ a b _ => fpMinMax true f fz a b
def vfrndV : ElemFn := fun f rnd fz R a _ _ => fpRound f rnd fz R a
def vfclsV : ElemFn := fun f _ _ _ a _ _ => ⟨fpClass f a, 0⟩
def vfsqrtV : ElemFn := fun f rnd fz R a _ _ => fpSqrt f rnd fz R a
def vfdivV : ElemFn := fun f rnd fz R a b _ => fpDiv f rnd fz R a b
def vfrcpV : ElemFn := fun _ _ fz _ a _ _ => fpFunction .rcp fz a
def vfrsqV : ElemFn := fun _ _ fz _ a _ _ => fpFunction .rsq fz a
def vfexp2V : ElemFn := fun _ _ fz _ a _ _ => fpFunction .exp2 fz a
def vflog2V : ElemFn := fun _ _ fz _ a _ _ => fpFunction .log2 fz a
/-- `VFTRIG` by its sub-operation (R46). -/
def vftrigV (sub : Nat) : ElemFn := fun _ _ fz _ a _ _ =>
  fpFunction (match sub with | 0 => .sin | 1 => .cos | _ => .tanh) fz a

/-! ### Whole vectors -/

/-- One vector from the lanes of `a`, `b` and the old destination. -/
def mapLanes (f : Word → Word → Word → Word) (a b d : Lanes) : Lanes :=
  perLane (fun L => f (lane a L) (lane b L) (lane d L))

/-- A pair of registers per lane. -/
structure Lanes2 where
  lo : Lanes
  hi : Lanes
  deriving DecidableEq, Repr

def lane2 (v : Lanes2) (L : Nat) : Dword := pairOf (lane v.lo L) (lane v.hi L)

/-- A 64-bit operation in each lane (R179). -/
def mapLanes2 (f : Dword → Dword → Dword) (a b : Lanes2) : Lanes2 :=
  { lo := perLane (fun L => lowHalf (f (lane2 a L) (lane2 b L))), hi := perLane (fun L => highHalf (f (lane2 a L) (lane2 b L))) }

/-- The context of a floating instruction: precision, HMOD, flush bit, and the draw of a lane and element (R87). -/
structure FpEnv where
  prec : Nat
  h    : HMod
  fz   : Bool
  draw : Nat → Nat → Nat

/-- Element `e` of operand `a` or `b` after R169. -/
def FpEnv.elem (E : FpEnv) (abs neg : Bool) (v : Lanes2) (L e : Nat) : Nat :=
  signMods (precFmt E.prec) abs neg (fpElem E.prec (lane v.lo L) (lane v.hi L) e)

/-- The result of one element of one lane (R181). -/
def FpEnv.result (E : FpEnv) (f : ElemFn) (a b d : Lanes2) (L e : Nat) : Coded :=
  f (precFmt E.prec) E.h.rnd E.fz (E.draw L e) (E.elem E.h.absa E.h.nega a L e) (E.elem E.h.absb E.h.negb b L e)
    (fpElem E.prec (lane d.lo L) (lane d.hi L) e)

/-- The lanes of a class 0x4 result (R181): both registers of binary64, both halves of a pair. -/
def FpEnv.map (E : FpEnv) (f : ElemFn) (a b d : Lanes2) : Lanes2 :=
  { lo := perLane (fun L =>
      match E.prec with
      | 0 => BitVec.ofNat 32 (E.result f a b d L 0).code
      | 1 => BitVec.ofNat 32 (E.result f a b d L 0).code
      | _ => BitVec.ofNat 32 ((E.result f a b d L 0).code + (E.result f a b d L 1).code * 2 ^ 16))
    hi := perLane (fun L => BitVec.ofNat 32 ((E.result f a b d L 0).code / 2 ^ 32)) }

/-- The flags raised in the lanes of a mask (R86). -/
def FpEnv.flags (E : FpEnv) (f : ElemFn) (a b d : Lanes2) (m : Word) : FpFlags :=
  (lanesOf m).foldl (fun fl L =>
    (List.range (precElems E.prec)).foldl (fun fl e => fl ||| (E.result f a b d L e).flags) fl) 0

end Sys2Proof.Machine
end

