-- ==== Sys2Proof/Machine/Replay.lean ====
section
/-! DEFINITION. Recipe bodies: which words a body may hold (R133), what they capture (R134, R149), their evaluation
(R142), replay, seal and the effect of writes on tags (R139, R142 to R147). -/

namespace Sys2Proof.Machine

/-! ### Body words -/

/-- A word of a recipe body by what it reads, computes and writes. A flag tells which operands are read. -/
inductive BodyOp where
  | scalar (d a b : Nat) (useA useB useD : Bool) (f : Word → Word → Word → Word)
  | scalar64 (d a b : Nat) (pairB : Bool) (f : Dword → Dword → Dword)
  | vector (d a b : Nat) (useA useB useD : Bool) (f : Word → Word → Word → Word)
  | vector64 (d a b : Nat) (f : Dword → Dword → Dword)
  | spread (d : Nat) (x : Nat → Word)
  | vmovs (d s : Nat)
  | float (prec d a b : Nat) (useB useD : Bool) (f : ElemFn)
  | vld (d i dn z : Nat)
  | vcvt (d a g f : Nat)

/-- A class 0x0 word of two operands, and of one. -/
def sOp {u v w : Nat} (d : BitVec u) (a : BitVec v) (b : BitVec w) (f : Word → Word → Word → Word) : Option BodyOp :=
  some (.scalar d.toNat a.toNat b.toNat true true false f)
def sOp1 {u v : Nat} (d : BitVec u) (a : BitVec v) (f : Word → Word → Word → Word) : Option BodyOp :=
  some (.scalar d.toNat a.toNat 0 true false false f)
def sOpD {u v w : Nat} (d : BitVec u) (a : BitVec v) (b : BitVec w) (f : Word → Word → Word → Word) : Option BodyOp :=
  some (.scalar d.toNat a.toNat b.toNat true true true f)
/-- A class 0x3 word with the default HMOD fields (R133). -/
def vOp (d a b : BitVec 7) (f : LaneFn) : Option BodyOp := some (.vector d.toNat a.toNat b.toNat true true false (f HMod.none))
def vOp1 (d a : BitVec 7) (f : LaneFn) : Option BodyOp := some (.vector d.toNat a.toNat 0 true false false (f HMod.none))
def vOpD (d a b : BitVec 7) (f : LaneFn) : Option BodyOp := some (.vector d.toNat a.toNat b.toNat true true true (f HMod.none))
/-- A class 0x4 word. -/
def fOp (p : BitVec 2) (d a b : BitVec 7) (f : ElemFn) : Option BodyOp :=
  some (.float p.toNat d.toNat a.toNat b.toNat true false f)
def fOp1 (p : BitVec 2) (d a : BitVec 7) (f : ElemFn) : Option BodyOp :=
  some (.float p.toNat d.toNat a.toNat 0 false false f)

/-- The body words of R133; none for a word that no body may hold. -/
def bodyOp : Instr → Option BodyOp
  | .sadd d a b 0#1 => sOp d a b saddV
  | .ssub d a b 0#1 => sOp d a b ssubV
  | .smul d a b 0#1 => sOp d a b smulV
  | .smulhi d a b 0#1 => sOp d a b smulhiV
  | .smulhu d a b 0#1 => sOp d a b smulhuV
  | .smad d a b 0#1 => sOpD d a b smadV
  | .sand d a b 0#1 => sOp d a b sandV
  | .sor d a b 0#1 => sOp d a b sorV
  | .sxor d a b 0#1 => sOp d a b sxorV
  | .sandn d a b 0#1 => sOp d a b sandnV
  | .sshl d a b 0#1 => sOp d a b sshlV
  | .sshr d a b 0#1 => sOp d a b sshrV
  | .ssra d a b 0#1 => sOp d a b ssraV
  | .srol d a b 0#1 => sOp d a b srolV
  | .smin d a b 0#1 => sOp d a b sminV
  | .smax d a b 0#1 => sOp d a b smaxV
  | .sminu d a b 0#1 => sOp d a b sminuV
  | .smaxu d a b 0#1 => sOp d a b smaxuV
  | .smov d a => sOp1 d a smovV
  | .smovi d i => some (.scalar d.toNat 0 0 false false false (fun _ _ _ => i.signExtend 32))
  | .smovhi d i => some (.scalar d.toNat 0 0 false false true (fun _ _ x => smovhiV (i.setWidth 32) 0 x))
  | .sclz d a => sOp1 d a sclzV
  | .spopc d a => sOp1 d a spopcV
  | .sbfe d a b 0#1 => sOp d a b sbfeV
  | .sbfi d a b 0#1 => sOpD d a b sbfiV
  | .sadd64 d a b 0#1 => some (.scalar64 d.toNat a.toNat b.toNat true sadd64V)
  | .ssub64 d a b 0#1 => some (.scalar64 d.toNat a.toNat b.toNat true ssub64V)
  | .sshl64 d a b 0#1 => some (.scalar64 d.toNat a.toNat b.toNat false sshl64V)
  | .sshr64 d a b 0#1 => some (.scalar64 d.toNat a.toNat b.toNat false sshr64V)
  | .vadd d a b 0#1 => vOp d a b vaddV
  | .vavg d a b 0#1 => vOp d a b vavgV
  | .vsub d a b 0#1 => vOp d a b vsubV
  | .vmul d a b 0#1 => vOp d a b vmulV
  | .vmulhi d a b 0#1 => vOp d a b vmulhiV
  | .vmulhu d a b 0#1 => vOp d a b vmulhuV
  | .vmad d a b 0#1 => vOpD d a b vmadV
  | .vand d a b 0#1 => vOp d a b vandV
  | .vor d a b 0#1 => vOp d a b vorV
  | .vxor d a b 0#1 => vOp d a b vxorV
  | .vandn d a b 0#1 => vOp d a b vandnV
  | .vshl d a b 0#1 => vOp d a b vshlV
  | .vshr d a b 0#1 => vOp d a b vshrV
  | .vsra d a b 0#1 => vOp d a b vsraV
  | .vmin d a b 0#1 => vOp d a b vminV
  | .vmax d a b 0#1 => vOp d a b vmaxV
  | .vminu d a b 0#1 => vOp d a b vminuV
  | .vmaxu d a b 0#1 => vOp d a b vmaxuV
  | .vabsd d a b 0#1 => vOp d a b vabsdV
  | .vsad d a b 0#1 => vOpD d a b vsadV
  | .vmov d a => vOp1 d a vmovV
  | .vmovi d i => some (.spread d.toNat (fun _ => i.signExtend 32))
  | .vmovs d s => some (.vmovs d.toNat s.toNat)
  | .vclz d a => vOp1 d a vclzV
  | .vpopc d a => vOp1 d a vpopcV
  | .vbfe d a b 0#1 => vOp d a b vbfeV
  | .vbfi d a b 0#1 => vOpD d a b vbfiV
  | .vadd64 d a b 0#1 => some (.vector64 d.toNat a.toNat b.toNat vadd64V)
  | .vsub64 d a b 0#1 => some (.vector64 d.toNat a.toNat b.toNat vsub64V)
  | .vidx d 0#1 => some (.spread d.toNat (fun L => BitVec.ofNat 32 L))
  | .vfadd p d a b 0#1 => fOp p d a b vfaddV
  | .vfsub p d a b 0#1 => fOp p d a b vfsubV
  | .vfmul p d a b 0#1 => fOp p d a b vfmulV
  | .vfma p d a b 0#1 => some (.float p.toNat d.toNat a.toNat b.toNat true true vfmaV)
  | .vfmin p d a b 0#1 => fOp p d a b vfminV
  | .vfmax p d a b 0#1 => fOp p d a b vfmaxV
  | .vfrnd p d a => fOp1 p d a vfrndV
  | .vfcls p d a => fOp1 p d a vfclsV
  | .vld d i dn z _ => if z = 4#3 ∨ z = 5#3 then some (.vld d.toNat i.toNat dn.toNat z.toNat) else none
  | .vcvt d a g f => some (.vcvt d.toNat a.toNat g.toNat f.toNat)
  | _ => none

/-- The instruction of a body word, or none for a word that is `UD` (R133): one that does not decode, demands an immediate that no
chain brings (R56), or cannot do without an `HMOD` (R264). -/
def wordUD (w : Word) : Option Instr :=
  match Sys2Proof.decode w with
  | .ok i => if (shape i).imm matches .flag 1#1 then none else if (shape i).modOk HMod.none then some i else none
  | .error _ => none

/-! ### Captures (R149) -/

/-- Scalars read, each with its byte in the capture area. -/
def BodyOp.sreads : BodyOp → List (Nat × Nat)
  | .scalar d a b useA useB useD _ =>
    (if useA then [(0, a)] else []) ++ (if useB then [(4, b)] else []) ++ (if useD then [(8, d)] else [])
  | .scalar64 _ a b pairB _ => [(0, a), (4, a + 1), (8, b)] ++ (if pairB then [(12, b + 1)] else [])
  | .vmovs _ s => [(0, s)]
  | _ => []

def BodyOp.swrites : BodyOp → List Nat
  | .scalar d _ _ _ _ _ _ => [d]
  | .scalar64 d _ _ _ _ => [d, d + 1]
  | _ => []

/-- The format words that a `VCVT` captured: fsrc, then fdst. -/
def capSrc (cap : BitVec 128) : Fmt := Fmt.ofWord (cap.extractLsb' 0 32)
def capDst (cap : BitVec 128) : Fmt := Fmt.ofWord (cap.extractLsb' 32 32)

/-- An element of a register, or of a pair for binary64 (R92). -/
def fmtRegs (f : Fmt) (n : Nat) : List Nat := if f.width = 64 then [n, n + 1] else [n]

/-- The vector names that a word reads, given its capture. -/
def BodyOp.vreads (cap : BitVec 128) : BodyOp → List Nat
  | .vector d a b useA useB useD _ => (if useA then [a] else []) ++ (if useB then [b] else []) ++ (if useD then [d] else [])
  | .vector64 _ a b _ => [a, a + 1, b, b + 1]
  | .float prec d a b useB useD _ =>
    let p := fun n => if prec = 1 then [n, n + 1] else [n]
    p a ++ (if useB then p b else []) ++ (if useD then p d else [])
  | .vld _ i _ _ => [i]
  | .vcvt d a _ _ => fmtRegs (capSrc cap) a ++ (if (capDst cap).scaled = 0 then [] else [d])
  | _ => []

def BodyOp.vwrites (cap : BitVec 128) : BodyOp → List Nat
  | .vector d .. => [d]
  | .vector64 d .. => [d, d + 1]
  | .spread d _ => [d]
  | .vmovs d _ => [d]
  | .float prec d .. => if prec = 1 then [d, d + 1] else [d]
  | .vld d _ _ z => if z = 5 then [d, d + 1] else [d]
  | .vcvt d .. => fmtRegs (capDst cap) d
  | _ => []

/-- Whether a word writes a vector register. -/
def BodyOp.writesVector (o : BodyOp) : Bool := !(o.vwrites 0).isEmpty

/-- The word of a format entry of a context (R74, R96). -/
def Ctx.entry (c : Ctx) (n : Nat) : Word := if n < 6 then fixedEntry n else c.fmt.getD (n - 6) 0

/-- The capture of one word (R134, R149); `temps` are the scalars that earlier words write. -/
def BodyOp.capture (w : Warp) (c : Ctx) (temps : List Nat) (o : BodyOp) : BitVec 128 :=
  match o with
  | .vld _ _ dn _ => w.getD dn
  | .vcvt _ _ g f => BitVec.ofNat 128 ((c.entry f).toNat + (c.entry g).toNat * 2 ^ 32)
  | o => BitVec.ofNat 128 (o.sreads.foldl (fun acc p =>
      if temps.contains p.2 then acc else acc + (w.getS p.2).toNat * 2 ^ (8 * p.1)) 0)

/-- The captures of the words of a body. -/
def captureAll (w : Warp) (c : Ctx) : List Nat → List BodyOp → List (BitVec 128)
  | _, [] => []
  | temps, o :: os => o.capture w c temps :: captureAll w c (o.swrites ++ temps) os

/-- The vector names that a body reads before it writes them (R134). -/
def bodyInputs : List Nat → List (BodyOp × BitVec 128) → List Nat
  | _, [] => []
  | written, (o, cap) :: rest =>
    let new := (o.vreads cap).filter (fun n => !written.contains n)
    let later := bodyInputs (o.vwrites cap ++ written) rest
    new ++ later.filter (fun n => !new.contains n)

/-! ### Evaluation (R142) -/

/-- The temporaries of one evaluation. -/
structure Temps where
  s : List (Nat × Word)
  v : List (Nat × Lanes)

def Temps.getS (t : Temps) (cap : BitVec 128) (pos n : Nat) : Word :=
  match t.s.find? (fun p => p.1 == n) with
  | some p => p.2
  | none => cap.extractLsb' (8 * pos) 32

def Temps.getV (t : Temps) (w : Warp) (n : Nat) : Lanes :=
  match t.v.find? (fun p => p.1 == n) with
  | some p => p.2
  | none => w.getV n

def Temps.putV (t : Temps) (n : Nat) (x : Lanes) : Temps := { t with v := (n, x) :: t.v }
def Temps.putS (t : Temps) (n : Nat) (x : Word) : Temps := { t with s := (n, x) :: t.s }

/-- A pair of names. -/
def Temps.getV2 (t : Temps) (w : Warp) (n : Nat) : Lanes2 := { lo := t.getV w n, hi := t.getV w (n + 1) }

/-- What one lane of a conversion gives (R98): the words and the flags; `R` is the draw of the lane. -/
def cvtLane (src dst : Fmt) (rnd : Nat) (sat fz : Bool) (R : Nat → Nat) (lo hi old : Lanes) (L : Nat) :
    (Word × Word) × FpFlags :=
  convertLane dst rnd sat fz (R L) (src.laneValue fz (lane lo L) (lane hi L)) (lane old L)

/-- The environment of an evaluation: the agent of its loads, the warp that holds the inputs, the lanes and the flush bit. -/
structure BodyEnv where
  agent : Agent
  ctx   : Ctx
  warp  : Warp
  mask  : Word
  fz    : Bool

/-- One word of a body. -/
def evalWord (E : BodyEnv) (s : State) (t : Temps) (cap : BitVec 128) (o : BodyOp) :
    Except Stop (State × Temps × FpFlags) :=
  match o with
  | .scalar d a b _ _ _ f => .ok (s, t.putS d (f (t.getS cap 0 a) (t.getS cap 4 b) (t.getS cap 8 d)), 0)
  | .scalar64 d a b pairB f =>
    let x := f (pairOf (t.getS cap 0 a) (t.getS cap 4 (a + 1)))
      (pairOf (t.getS cap 8 b) (if pairB then t.getS cap 12 (b + 1) else 0))
    .ok (s, (t.putS d (lowHalf x)).putS (d + 1) (highHalf x), 0)
  | .vector d a b _ _ _ f => .ok (s, t.putV d (mapLanes f (t.getV E.warp a) (t.getV E.warp b) (t.getV E.warp d)), 0)
  | .vector64 d a b f =>
    let x := mapLanes2 f (t.getV2 E.warp a) (t.getV2 E.warp b)
    .ok (s, (t.putV d x.lo).putV (d + 1) x.hi, 0)
  | .spread d x => .ok (s, t.putV d (perLane x), 0)
  | .vmovs d n => .ok (s, t.putV d (perLane (fun _ => t.getS cap 0 n)), 0)
  | .float prec d a b _ _ f =>
    let env : FpEnv := { prec := prec, h := HMod.none, fz := E.fz, draw := fun _ _ => 0 }
    let va := t.getV2 E.warp a
    let vb := t.getV2 E.warp b
    let vd := t.getV2 E.warp d
    let x := env.map f va vb vd
    let t := t.putV d x.lo
    .ok (s, if prec = 1 then t.putV (d + 1) x.hi else t, env.flags f va vb vd E.mask)
  | .vld d i _ z =>
    let idx := t.getV E.warp i
    let b := Buf.of cap
    let ls := s.laneStates E.agent.master E.ctx b (sizeBytes z) false
      ((lanesOf E.mask).map (fun L => (L, (lane idx L).toNat)))
    match s.settle E.agent ls { core := E.agent.core, scope := 0, promotes := false } false true with
    | .error e => .error e
    | .ok s =>
      let vs := s.loadLanes E.agent (sizeBytes z) ls
      let t := t.putV d (perLane (fun L => BitVec.ofNat 32 (laneNat vs L)))
      .ok (s, if z = 5 then t.putV (d + 1) (perLane (fun L => BitVec.ofNat 32 (laneNat vs L / 2 ^ 32))) else t, 0)
  | .vcvt d a _ _ =>
    let src := capSrc cap
    let dst := capDst cap
    let f := cvtLane src dst 0 false E.fz (fun _ => 0) (t.getV E.warp a) (t.getV E.warp (a + 1)) (t.getV E.warp d)
    let t := t.putV d (perLane (fun L => (f L).1.1))
    .ok (s, if dst.width = 64 then t.putV (d + 1) (perLane (fun L => (f L).1.2)) else t,
      (lanesOf E.mask).foldl (fun fl L => fl ||| (f L).2) 0)

/-- The words of a body in order. -/
def evalWords (E : BodyEnv) : State → Temps → FpFlags → List (BodyOp × BitVec 128) → Except Stop (State × Temps × FpFlags)
  | s, t, fl, [] => .ok (s, t, fl)
  | s, t, fl, (o, cap) :: rest =>
    match evalWord E s t cap o with
    | .error e => .error e
    | .ok (s, t, fl') => evalWords E s t (fl ||| fl') rest

/-- The words of a slot's body with their captures. -/
def Slot.ops (x : Slot) : List (BodyOp × BitVec 128) :=
  ((x.body.filterMap wordUD).filterMap bodyOp).zip x.caps

/-- The result of the last word (R134): its registers, masked to the tag lanes, zero elsewhere. -/
def resultOf (t : Temps) (mask : Word) (ops : List (BodyOp × BitVec 128)) : Lanes × Lanes :=
  match ops.getLast? with
  | some (o, cap) =>
    match o.vwrites cap with
    | d :: _ => (mergeLanes mask ((t.v.find? (fun p => p.1 == d)).elim zeroLanes Prod.snd) zeroLanes,
        mergeLanes mask ((t.v.find? (fun p => p.1 == d + 1)).elim zeroLanes Prod.snd) zeroLanes)
    | [] => (zeroLanes, zeroLanes)
  | none => (zeroLanes, zeroLanes)

/-- The tag's registers written. -/
def Warp.putTagged (w : Warp) (vd : Nat) (wide : Bool) (x : Lanes × Lanes) : Warp :=
  if wide then (w.putV vd x.1).putV (vd + 1) x.2 else w.putV vd x.1

/-! ### Replay and seal (R139, R142 to R144) -/

/-- A stop inside a replay or seal: a fault becomes the fault of slot `n` at the reading instruction, for the whole
fragment (R144), and so would that of a claim or of a page that the pager refuses. -/
def Stop.inReplay (s : State) (n : Nat) : Stop → Stop
  | .trap t => .trapAt s { t with rpl := some n, lanes := none }
  | .wait s (.claim k d st _ names) => .wait s (.claim k d st (some n) names)
  | .wait s (.futures js) => .wait s (.futures (js.map (fun j => { j with rpl := some n, lanes := none })))
  | e => e

/-- The slots that hold a name among their inputs, ascending by tag time. -/
def Warp.slotsReading (w : Warp) (name : Nat) : List Nat := w.slotsIn (fun x => x.bound && x.inputs.contains name)

/-- The tagged inputs of a slot, ascending by tag time. -/
def Warp.taggedInputs (w : Warp) (n : Nat) : List Nat :=
  w.slotsIn (fun y => y.bound && y.names.any (fun v => (w.slot? n).inputs.contains v))

/-- A list of actions on the state, in order, until one stops. -/
def inOrder (f : State → Nat → Except Stop State) : State → List Nat → Except Stop State
  | s, [] => .ok s
  | s, n :: ns =>
    match f s n with
    | .ok s => inOrder f s ns
    | .error e => .error e

/-- Replays a slot that is Dropped (R142); `excl` are the slots that no claim may drop (R143). -/
def replaySlot : Nat → Agent → Nat → List Nat → State → Nat → Except Stop State
  | 0, _, _, _, s, _ => .ok s
  | fuel + 1, a, uid, excl, s, n =>
    match s.warp? uid with
    | none => .ok s
    | some w =>
      if (w.slot? n).state ≠ .dropped then .ok s
      else
        let inner := w.taggedInputs n
        let excl := n :: inner ++ excl
        match inOrder (replaySlot fuel a uid excl) s inner with
        | .error e => .error e
        | .ok s =>
          let x := w.slot? n
          match makeRoom 64 s uid x.names excl with
          | .error e => .error (e.inReplay s n)
          | .ok s =>
            match s.warp? uid, s.ctx? a.part a.slot with
            | some w, some c =>
              match evalWords { agent := a, ctx := c, warp := w, mask := x.tmask, fz := x.fz } s { s := [], v := [] } 0 x.ops with
              | .error e => .error (e.inReplay s n)
              | .ok (s, t, _) =>
                .ok (s.setWarp ((w.putTagged x.vd x.w64 (resultOf t x.tmask x.ops)).setSlot n { x with state := .live }))
            | _, _ => .ok s

/-- The slot with its body alone (R131, R149). -/
def Slot.defined (x : Slot) : Slot := { Slot.none with state := .defined, body := x.body }

/-- The depth of a tag with these inputs (R135). -/
def Warp.tagDepth (w : Warp) (inputs : List Nat) : Nat :=
  1 + inputs.foldl (fun a n => max a (((w.tagOf n).map (fun x => (w.slot? x).depth)).getD 0)) 0

/-- The depths of the bound slots as their inputs are tagged now: an input that was sealed counts no more (R135). -/
def Warp.redepth (w : Warp) : Warp :=
  { w with slots := w.slots.map (fun (x : Slot) => if x.bound then { x with depth := w.tagDepth x.inputs } else x) }

/-- Releases a slot's binding (R139 steps 2 and 3, R147). -/
def State.releaseSlot (s : State) (uid n : Nat) : State :=
  match s.warp? uid with
  | none => s
  | some w => if (w.slot? n).bound then s.setWarp (w.setSlot n (w.slot? n).defined).redepth else s

/-- A seal (R139). -/
def sealSlot (a : Agent) (uid : Nat) (excl : List Nat) (s : State) (n : Nat) : Except Stop State :=
  match replaySlot 3 a uid excl s n with
  | .error e => .error e
  | .ok s => .ok (s.releaseSlot uid n)

/-- The slots that a write to a name seals, ascending by tag time: those that read it, and those that read a name of its own tag
(R146, R147). -/
def Warp.sealedBy (w : Warp) (name : Nat) : List Nat :=
  let names := name :: (w.tagOf name).elim [] (fun n => (w.slot? n).names)
  w.slotsIn (fun y => y.bound && names.any (fun v => y.inputs.contains v))

/-- The seals that a write to a name makes first. -/
def sealReaders (a : Agent) (uid : Nat) (excl : List Nat) (s : State) (name : Nat) : Except Stop State :=
  inOrder (sealSlot a uid excl) s (((s.warp? uid).map (fun w => w.sealedBy name)).getD [])

/-- The tag of a name that is written ends (R146, R147). -/
def State.releaseTag (s : State) (uid name : Nat) : State :=
  match (s.warp? uid).bind (fun w => w.tagOf name) with
  | some n => s.releaseSlot uid n
  | none => s

/-- What writes to vector names do before they take effect: the seals, whose replays drop none of the slots `keep` (R143), then room
for the names that are not mapped, which drops no slot of `excl` (R122, R138), then the end of the names' own tags. A wait leaves
the tags as they are (R130). -/
def beforeWrites (a : Agent) (uid : Nat) (keep excl names : List Nat) (s : State) : Except Stop State :=
  match inOrder (sealReaders a uid keep) s names with
  | .error e => .error e
  | .ok s =>
    match s.warp? uid with
    | none => .ok s
    | some w =>
      let own := w.slotsIn (fun x => x.bound && x.names.any (fun v => names.contains v))
      match (if names.all w.mapped then .ok s else makeRoom 64 s uid names (own ++ excl)) with
      | .error e => .error e
      | .ok s => .ok (names.foldl (fun s n => s.releaseTag uid n) s)

/-- Replays the tagged registers among the names read, ascending by tag time (R142). -/
def replayReads (a : Agent) (uid : Nat) (excl : List Nat) (s : State) (names : List Nat) : Except Stop State :=
  match s.warp? uid with
  | none => .ok s
  | some w => inOrder (replaySlot 3 a uid excl) s (w.slotsIn (fun x => x.bound && x.names.any (fun v => names.contains v)))

end Sys2Proof.Machine
end

