-- ==== Sys2Proof/Machine/Issue.lean ====
section
/-! DEFINITION. The shared life of an issue: the checks of R39 before execution, the scheduling modes (R52, R61), what
reads and writes of vector registers do first (R122, R142, R146), and what completion leaves (R51 to R54, R62). -/

namespace Sys2Proof.Machine

/-! ### The hint chain (R47, R55 to R60) -/

/-- What a chain gives its instruction. -/
structure Hints where
  himmx : Option (BitVec 10)
  himm  : Option (BitVec 22)
  mod   : Option HMod
  pred  : Option (Nat × Bool)
  perm  : Option Perm
  hsch  : Bool
  deriving DecidableEq, Repr

def Hints.none : Hints := { himmx := .none, himm := .none, mod := .none, pred := .none, perm := .none, hsch := false }

/-- A hint word (R47). -/
def isHint (i : Instr) : Bool :=
  match i with
  | .hsch .. => true
  | .himm .. => true
  | .himmx .. => true
  | .hmod .. => true
  | .hpred .. => true
  | .hperm .. => true
  | _ => false

/-- The word of a chain element, for the detail of a `UD` (R400). -/
def hintWord (i : Instr) : Word :=
  match i with
  | .unassignedEncoding w => w
  | i => (Sys2Proof.encode i).getD 0

/-- Adds one hint word; the error is the word at which a rule of R47 fails. `next` is the word after it. -/
def Hints.add (h : Hints) (i : Instr) (next : Option Instr) : Except Word Hints :=
  let bad := Except.error (hintWord i)
  match i with
  | .hsch .. => if h.hsch then bad else .ok { h with hsch := true }
  | .himmx x =>
    match next with
    | some (.himm _) => if h.himmx.isSome then bad else .ok { h with himmx := some x }
    | _ => bad
  | .himm i => if h.himm.isSome then bad else .ok { h with himm := some i }
  | .hmod s o r t w a b n m x y g =>
    if h.mod.isSome then bad
    else
      .ok { h with mod := some {
        scope := s.toNat, ord := o.toNat, rnd := r.toNat, sat := t == 1#1, wid := w.toNat, sela := a.toNat,
        selb := b.toNat, nega := n == 1#1, negb := m == 1#1, absa := x == 1#1, absb := y == 1#1, sgn := g == 1#1 } }
  | .hpred k v => if h.pred.isSome then bad else .ok { h with pred := some (k.toNat, v == 1#1) }
  | .hperm p a q b s =>
    if h.perm.isSome then bad
    else .ok { h with perm := some { pa := p.toNat, na := a.toNat, pb := q.toNat, nb := b.toNat, s := s.toNat } }
  | _ => bad

/-- The hints of a chain, or the word at which a rule of R47 fails. -/
def chainHints : Hints → List Instr → Except Word Hints
  | h, [] => .ok h
  | h, i :: is =>
    match h.add i is.head? with
    | .ok h => chainHints h is
    | .error w => .error w

/-- The immediate V of R55, when the chain holds a HIMM. -/
def Hints.imm (h : Hints) : Option Word :=
  h.himm.map (fun i =>
    match h.himmx with
    | some x => x ++ i
    | .none => i.signExtend 32)

def Hints.m (h : Hints) : HMod := h.mod.getD HMod.none
def Hints.p (h : Hints) : Perm := h.perm.getD Perm.none

/-- The word of a kind of hint in a chain. -/
def chainWord (chain : List Instr) (p : Instr → Bool) : Word := ((chain.find? p).map hintWord).getD 0

/-! ### Acceptance (R48, R56 to R60, R170) -/

/-- The legal values of a selector (R58). -/
def selLegal (wid s : Nat) : Bool :=
  match wid with
  | 0 => s == 0
  | 1 => s ≤ 2
  | _ => s ≤ 4

/-- Whether the instruction accepts the immediate of its chain, and the other way round (R48, R56). -/
def immAccepted (u : ImmUse) (h : Hints) : Bool :=
  match u with
  | .no => h.himm.isNone
  | .flag i => (i == 1#1) == h.himm.isSome
  | .field zero => h.himm.isNone || zero

/-- Whether the HMOD of the chain holds only what the instruction consumes (R48, R57, R58). -/
def modAccepted (sh : Shape) (h : Hints) : Bool :=
  match h.mod with
  | .none => true
  | some m =>
    match sh.mods with
    | .none => false
    | some fs =>
      allModFields.all (fun f => m.isZero f || fs.contains f) &&
        (sh.keySel || (selLegal m.wid m.sela && selLegal m.wid m.selb)) &&
        (m.selb == 0 || h.himm.isNone)

/-- Whether the HPERM of the chain routes only vector operands (R60, R170). -/
def permAccepted (sh : Shape) (h : Hints) : Bool :=
  match h.perm with
  | .none => true
  | some p => sh.perm && (p.pa == 0 || sh.permA) && (p.pb == 0 || sh.permB)

/-- Whether the instruction cannot take the immediate that its chain holds. -/
def immUnwanted (u : ImmUse) (h : Hints) : Bool :=
  h.himm.isSome && (match u with
    | .no => true
    | .flag i => i == 0#1
    | .field _ => false)

/-- The word at which the encoding check fails, if any (R39 check 1): a hint that the instruction does not accept, or else the
instruction, for a limit of its own entry and for a second coverage (R54). -/
def acceptance (i : Instr) (f : Frag) (h : Hints) : Option Word :=
  let sh := shape i
  let own := (Sys2Proof.encode i).getD 0
  if immUnwanted sh.imm h then some (chainWord f.chain (fun x => x matches .himm _))
  else if immAccepted sh.imm h = false then some own
  else if modAccepted sh h = false then some (chainWord f.chain (fun x => x matches .hmod ..))
  else if h.pred.isSome && !sh.pred then some (chainWord f.chain (fun x => x matches .hpred ..))
  else if permAccepted sh h = false then some (chainWord f.chain (fun x => x matches .hperm ..))
  else if sh.modOk h.m = false ∨ h.imm.any (fun v => !sh.immOk v) = true ∨ (h.hsch && !f.cover.isEmpty) = true then some own
  else none

/-! ### The issuer -/

/-- An instruction at issue: the state, who issues, the registers as it reads them, and its hints. -/
structure Issue where
  st    : State
  ref   : FragRef
  /-- The registers as read: in the trusting mode an early read sees the values of R61. -/
  view  : Warp
  /-- The warp itself. -/
  warp  : Warp
  frag  : Frag
  group : Group
  grid  : Grid
  /-- The context, with the format entries as the instruction reads them. -/
  ctx   : Ctx
  h     : Hints
  /-- A source of it was dropped, and a replay gives its value (R62). -/
  replayed : Bool := false
  /-- Its vector sources are read, and its writes prepared: `view` holds what it reads. -/
  viewed : Bool := false
  deriving DecidableEq, Repr

/-- The warp as an instruction that issued and waited read it. -/
def Latch.view (l : Latch) (w : Warp) : Warp :=
  { w with
    s := l.s, c := l.c, k := l.k, d := l.d
    v := (l.dropped.filterMap (fun n => w.v.find? (fun p => p.1 == n))).foldl (fun v p => insertBy Prod.fst p v) l.v }

/-- The format words of a core's replica (R79): the last update that it holds, of each entry. -/
def Ctx.replica (c : Ctx) (core : Nat) : Vector Word 10 :=
  c.updating.foldl (fun f u => if u.cores.contains core then f.setIfInBounds (u.n - 6) u.word else f) c.fmt

/-- The context as the instruction of a fragment reads it: the replica of its core, or what it read when it issued (R80). -/
def Ctx.readBy (c : Ctx) (core : Nat) (f : Frag) : Ctx :=
  match f.latch with
  | some l => { c with fmt := l.fmt, cfg := l.cfg, srseed := l.srseed }
  | none => { c with fmt := c.replica core }

/-- The registers as the instruction of a fragment reads them when no result is in flight. -/
def Frag.reads (f : Frag) (w : Warp) : Warp := (f.latch.map (fun l => l.view w)).getD w

/-- The issue of the fragment that `cur` names. -/
def State.issuer (s : State) : Option Issue :=
  match s.cur with
  | none => none
  | some r =>
    match s.warp? r.warp with
    | none => none
    | some w =>
      match w.frag? r.frag, s.group? w.group with
      | some f, some g =>
        match s.grid? g.grid, s.ctxOf g with
        | some gr, some c =>
          some { st := s, ref := r, view := f.reads w, warp := w, frag := f, group := g, grid := gr, ctx := c.readBy w.core f,
                 h := Hints.none }
        | _, _ => none
      | _, _ => none

/-- The sender of the issuer's accesses, with what a record of them says (R398): an access parks no fragment, so that its record was
split from its own (R444). -/
def Issue.sender (I : Issue) : Sender :=
  let own := I.frag.record.getD 15
  let others := (I.warp.frags.filter (fun x => x.id != I.frag.id)).filterMap Frag.record
  { core := I.warp.core, warp := I.ref.warp, lanes := I.frag.lanes, part := I.group.part, ctx := I.group.ctx, group := I.group.uid,
    grid := I.grid.uid, who := I.warp.who, frag := fragWord I.warp.role others own own, kid := BitVec.ofNat 32 I.grid.kid,
    gx := I.group.gx, gy := I.group.gy, gz := I.group.gz, gridn := I.grid.gridn, op := 0, told := false, va := 0 }

/-- The agent of the issuer's accesses; lanes are engine 0 (R392). -/
def Issue.agent (I : Issue) : Agent :=
  { from_ := I.sender, frag := I.ref, eng := 0, granted := I.frag.granted, denied := I.frag.denied }

def Issue.active (I : Issue) : Word := I.frag.lanes

/-- The governing mask (R59). -/
def Issue.mask (I : Issue) : Word :=
  match I.h.pred with
  | none => I.frag.lanes
  | some (k, inv) => I.frag.lanes &&& (if inv then ~~~(I.view.getK k) else I.view.getK k)

def Issue.lanes (I : Issue) : List Nat := lanesOf I.mask

/-- Whether the instruction issued before and now goes on after its wait. -/
def Issue.latched (I : Issue) : Bool := I.frag.latch.isSome

/-- The core clock at issue. -/
def Issue.now (I : Issue) : Nat := (I.frag.latch.map Latch.clock).getD (I.st.clock I.warp.core)

/-- The share of coverage of this instruction, when its warp honours stalls (R51, R52). -/
def Issue.share (I : Issue) : Option Cover := if I.warp.mode = .interlocked then none else I.frag.covering.head?

/-- Whether the fragment yields after this instruction; the yield acts in every mode (R54, R61). -/
def Issue.yields (I : Issue) : Bool := (I.frag.covering.head?.map Cover.yield).getD false

/-- The clock from which the fragment may issue next (R52). -/
def Issue.stall (I : Issue) : Nat := I.now + max ((I.share.map Cover.stall).getD 1) 1

/-- The clock from which its port may select the fragment again: not in the next one after a yield (R54). -/
def Issue.rest (I : Issue) : Nat := if I.yields then I.now + 2 else 0

/-- The state with the issuer's warp changed. -/
def Issue.put (I : Issue) (w : Warp) : State := I.st.setWarp w

/-! ### Registers read and written -/

/-- The words of a slot's body with the captures that `RTAG` would make now (R138). -/
def Issue.tagOps (I : Issue) (x : Nat) : List (BodyOp × BitVec 128) :=
  let ops := ((I.view.slot? x).body.filterMap wordUD).filterMap bodyOp
  ops.zip (captureAll I.view I.ctx [] ops)

/-- Whether the result of some words takes a pair of registers (R134). -/
def wideResult (ops : List (BodyOp × BitVec 128)) : Bool :=
  (ops.getLast?.map (fun o => decide (1 < (o.1.vwrites o.2).length))).getD false

/-- The vector inputs that an `RTAG` binds; none of any other instruction (R134). -/
def Issue.bindings (I : Issue) (i : Instr) : List Nat :=
  match i with
  | .rtag _ x => bodyInputs [] (I.tagOps x.toNat)
  | _ => []

/-- The registers that an instruction reads: those of its form, the governing mask and index of its hints, the second
registers of 64-bit elements, and for `RTAG` the inputs, captured scalars and captured records of the body. -/
def Issue.reads (I : Issue) (i : Instr) : List Reg :=
  let sh := shape i
  sh.src ++ (if I.h.m.wid = 1 then sh.wideSrc.map Reg.v else []) ++
    (match I.h.pred with | some (k, _) => [.k k] | none => []) ++
    (if I.h.p.pa = 5 ∨ I.h.p.pb = 5 then [.s I.h.p.s] else []) ++
    (match i with
      | .vcvt d a g f => cvtReads d a g f
      | .vcvto d a g f => .s 62 :: cvtReads d a g f
      | .vcvts _ a g f => scaleReads a g f
      | .tfill t a => accPair t a
      | .tscale t a b => accPair t a ++ (if I.view.getS b.toNat = 0 then [] else [.s (b.toNat + 1)])
      | .rtag _ x =>
        (bodyInputs [] (I.tagOps x.toNat)).map Reg.v ++ ((I.tagOps x.toNat).flatMap (fun o => captured o.1))
      | _ => [])
where
  captured (o : BodyOp) : List Reg :=
    match o with
    | .vld _ _ dn _ => [.d dn]
    | o => o.sreads.map (fun p => Reg.s p.2)
  accPair (t : BitVec 4) (a : BitVec 6) : List Reg :=
    if field (I.grid.kd.tiles.getD t.toNat 0).toNat 16 2 = 2 then [.s (a.toNat + 1)] else []
  cvtReads (d a : BitVec 7) (g f : BitVec 4) : List Reg :=
    let src := Fmt.ofWord (I.ctx.entry f.toNat)
    let dst := Fmt.ofWord (I.ctx.entry g.toNat)
    (fmtRegs src a.toNat).map Reg.v ++ (if dst.scaled = 0 then [] else [.v d.toNat])
  scaleReads (a : BitVec 7) (g f : BitVec 4) : List Reg :=
    let n := (fmtRegs (Fmt.ofWord (I.ctx.entry f.toNat)) a.toNat).length
    let dst := Fmt.ofWord (I.ctx.entry g.toNat)
    rvn a.toNat (if dst.block = 64 then 2 * n else n)

/-- Whether the instruction writes nothing because no lane is in the governing mask (R201). -/
def Issue.idle (I : Issue) (i : Instr) : Bool :=
  match i with
  | .vredx .. => I.mask == 0
  | .vscanx .. => I.mask == 0
  | _ => false

/-- The registers that an instruction writes. -/
def Issue.writes (I : Issue) (i : Instr) : List Reg :=
  let sh := shape i
  if I.idle i then [] else sh.dst ++ (if I.h.m.wid = 1 then sh.wideDst.map Reg.v else []) ++
    (match i with
      | .vcvt d _ g _ => cvtWrites d g
      | .vcvto d _ g _ => cvtWrites d g
      | .vcvts d _ g _ => if (Fmt.ofWord (I.ctx.entry g.toNat)).block = 64 then [.v (d.toNat + 1)] else []
      | _ => [])
where
  cvtWrites (d : BitVec 7) (g : BitVec 4) : List Reg :=
    if (Fmt.ofWord (I.ctx.entry g.toNat)).width = 64 then [.v (d.toNat + 1)] else []

/-- The registers whose earlier results in flight an instruction overwrites: those that it writes, and those of a tag. -/
def Issue.overwrites (I : Issue) (i : Instr) : List Reg :=
  I.writes i ++ (match i with
    | .rtag d x => .v d.toNat :: (if wideResult (I.tagOps x.toNat) then [.v (d.toNat + 1)] else [])
    | _ => [])

/-- The bits or lanes of a register that an instruction writes, when it writes it (R175, R176, R190, R197 to R199, R203, R205). -/
def Issue.bitsOf (I : Issue) (i : Instr) (r : Reg) : Word :=
  match r with
  | .k _ =>
    (match i with
      | .vballot .. => allBits | .vcvto .. => allBits | .kand .. => allBits | .kor .. => allBits | .kxor .. => allBits
      | .knot .. => allBits | .kmov .. => allBits | .stok .. => allBits
      | _ => I.active)
  | .v _ =>
    (match i with
      | .vsel .. => allBits | .vcmpr .. => allBits | .rtag .. => allBits
      | .vpackb _ _ p => packed p.toNat 8
      | .vpackn _ _ p => packed p.toNat 8
      | .vpack6 _ _ p => packed p.toNat 6
      | _ => I.mask)
  | _ => allBits
where
  packed (p n : Nat) : Word := maskOf (fun L => decide (p ≤ L) && decide (L < p + n))

/-- What an instruction writes, with the bits or lanes. -/
def Issue.written (I : Issue) (i : Instr) : List (Reg × Word) := (I.overwrites i).map (fun r => (r, I.bitsOf i r))

def vectorNames (rs : List Reg) : List Nat :=
  (rs.filterMap (fun r => match r with | .v n => some n | _ => none)).foldl
    (fun acc n => if acc.contains n ∨ 128 ≤ n then acc else acc ++ [n]) []

/-! ### Results in flight (R61 to R63) -/

def InFlight.reg : InFlight → Reg
  | .s n _ _ => .s n
  | .k n _ _ => .k n
  | .c n _ _ => .c n
  | .d n _ _ => .d n
  | .v n _ _ => .v n

def InFlight.ready : InFlight → Nat
  | .s _ t _ => t
  | .k _ t _ => t
  | .c _ t _ => t
  | .d _ t _ => t
  | .v _ t _ => t

/-- The warp with the value that a register held before a result in flight. -/
def InFlight.undo (e : InFlight) (w : Warp) : Warp :=
  match e with
  | .s n _ x => w.setS n x
  | .k n _ x => w.setK n x
  | .c n _ x => w.setC n x
  | .d n _ x => w.setD n x
  | .v n _ x => w.putV n x

/-- The registers as a trusting warp reads them at a clock: the oldest result not yet written hides the later ones. -/
def Warp.viewAt (w : Warp) (now : Nat) : Warp :=
  (w.inflight.filter (fun e => decide (now < e.ready))).reverse.foldl (fun w e => e.undo w) w

/-- The results in flight among some registers. -/
def Warp.pendingOn (w : Warp) (now : Nat) (rs : List Reg) : List InFlight :=
  w.inflight.filter (fun e => decide (now < e.ready) && rs.contains e.reg)

/-- The result of one fixed-latency write: what the register holds before it. -/
def Reg.inFlight (r : Reg) (w : Warp) (ready : Nat) : InFlight :=
  match r with
  | .s n => .s n ready (w.getS n)
  | .k n => .k n ready (w.getK n)
  | .c n => .c n ready (w.getC n)
  | .d n => .d n ready (w.getD n)
  | .v n => .v n ready (w.getV n)

/-! ### The checks of a conversion (R95, R101) -/

/-- `ILLFMT` naming an entry, with a status. -/
def illfmt (status : Word) (entry : Nat) : Stop :=
  .trap { code := .illfmt, detail := status, aux := BitVec.ofNat 32 entry }

/-- The first illegal entry of a conversion: fsrc, then fdst. -/
def illegalEntry (c : Ctx) (src dst : Nat) : Option Stop :=
  if fmtLegal (c.entry src) = false then some (illfmt (fmtStatus (c.entry src)) src)
  else if fmtLegal (c.entry dst) = false then some (illfmt (fmtStatus (c.entry dst)) dst)
  else none

/-- The register checks of `VCVT` and `VCVTO`: an odd register that holds a binary64 element. -/
def oddElement (c : Ctx) (d a : BitVec 7) (g f : BitVec 4) : Option Stop :=
  if (Fmt.ofWord (c.entry f.toNat)).width = 64 ∧ a.getLsbD 0 = true then some (illfmt 0 f.toNat)
  else if (Fmt.ofWord (c.entry g.toNat)).width = 64 ∧ d.getLsbD 0 = true then some (illfmt 0 g.toNat)
  else none

/-- The register checks of `VCVTS`. The record of a pair that is odd or goes beyond v127 names fdst: the rule gives status 0
and does not say which entry (log entry 69). -/
def scaleChecks (c : Ctx) (d a : BitVec 7) (g f : BitVec 4) : Option Stop :=
  let src := Fmt.ofWord (c.entry f.toNat)
  let dst := Fmt.ofWord (c.entry g.toNat)
  let n := if src.width = 64 then 2 else 1
  if src.width = 64 ∧ a.getLsbD 0 = true then some (illfmt 0 f.toNat)
  else if dst.scaled = 0 then some (illfmt 0 g.toNat)
  else if dst.block = 64 ∧ (a.getLsbD 0 = true ∨ d.getLsbD 0 = true) then some (illfmt 0 g.toNat)
  else if dst.block = 64 ∧ (128 ≤ a.toNat + n ∨ 128 ≤ d.toNat + 1) then some (illfmt 0 g.toNat)
  else none

/-- The fault of a conversion's entries and registers. -/
def conversionFault (c : Ctx) (i : Instr) : Option Stop :=
  match i with
  | .vcvt d a g f => (illegalEntry c f.toNat g.toNat).or (oddElement c d a g f)
  | .vcvto d a g f => (illegalEntry c f.toNat g.toNat).or (oddElement c d a g f)
  | .vcvts d a g f => (illegalEntry c f.toNat g.toNat).or (scaleChecks c d a g f)
  | _ => none

/-! ### The checks before execution, and the preparation of registers -/

/-- A trap of the instruction as a whole (R491). -/
def wholeTrap (c : FaultCode) (detail aux : Nat) : Stop :=
  .trap { code := c, detail := BitVec.ofNat 32 detail, aux := BitVec.ofNat 32 aux }

/-- Who reaches a context state register (R395). -/
inductive CsrAccess where
  | read | handler | both | driver | write
  deriving DecidableEq, Repr

def csrAccess (n : Nat) : CsrAccess :=
  if [0x00, 0x01, 0x13, 0x1B].contains n then .read
  else if [0x02, 0x03, 0x04].contains n then .handler
  else if [0x08, 0x09, 0x0A, 0x0B, 0x0C].contains n then .driver
  else if n = 0x17 ∨ n = 0x1D then .write
  else .both

/-- Check 3 of R39: the privilege of `CSRD` and `CSWR` (R411). -/
def Issue.privFault (I : Issue) (i : Instr) : Option Stop :=
  match i with
  | .csrd _ r =>
    let bad := match csrAccess r.toNat with
      | .driver => true | .write => true | .both => !I.grid.handler | _ => false
    if bad then some (wholeTrap .priv r.toNat 0) else none
  | .cswr _ r =>
    let bad := match csrAccess r.toNat with
      | .driver => true | .read => true | _ => !I.grid.handler
    if bad then some (wholeTrap .priv (256 + r.toNat) 0) else none
  | _ => none

/-- Checks 1 to 3 of R39. -/
def Issue.checked (I : Issue) (i : Instr) : Except Stop Issue :=
  match chainHints Hints.none I.frag.chain with
  | .error w => .error (wholeTrap .ud w.toNat 0)
  | .ok h =>
    match acceptance i I.frag h with
    | some w => .error (wholeTrap .ud w.toNat 0)
    | none =>
      if ((shape i).role.elim false (fun r => I.warp.role != r)) then
        let w := ((Sys2Proof.encode i).getD 0).toNat
        .error (wholeTrap .role (field w 28 4 + field w 22 6 * 16 + roleNat I.warp.role * 1024) 0)
      else match I.privFault i with
        | some e => .error e
        | none => .ok { I with h := h }

/-- The instructions of the warp's other fragments that issued and wait. -/
def Issue.outstanding (I : Issue) : List Latch := (I.warp.frags.filter (fun f => f.id != I.ref.frag)).filterMap Frag.latch

/-- The registers that they have not yet written. -/
def Issue.unwritten (I : Issue) : List Reg := I.outstanding.flatMap (fun l => l.owed.map Prod.fst)

/-- An instruction of class 0x4 or 0xC, which may set flags (R86). -/
def setsFlags (i : Instr) : Bool :=
  let c := field ((Sys2Proof.encode i).getD 0).toNat 28 4
  c == 4 || c == 12

/-- A read or write of `%fpflags` waits for the warp's earlier instructions that may set flags (R86, R156, R157). -/
def Issue.flagsBusy (I : Issue) (i : Instr) : Bool :=
  (match i with
    | .sget _ n => n.toNat == 16
    | .ssetx _ n => n.toNat == 16
    | _ => false) && I.outstanding.any (fun l => setsFlags l.instr)

/-- An `MBSEND` waits for the warp's earlier ones, which are accepted before it (R348). -/
def Issue.sendsBusy (I : Issue) (i : Instr) : Bool := (i matches .mbsend ..) && I.outstanding.any (fun l => l.instr matches .mbsend ..)

/-- The recipe slots on which an instruction acts: those bound to a name that it reads or writes, those that its writes seal, those
that it names, and the tagged inputs of all of them (R137 to R148). -/
def Issue.touches (I : Issue) (i : Instr) : List Nat :=
  let writes := vectorNames (I.overwrites i)
  let ends := writes ++ (I.warp.slotsIn (fun x => x.bound && x.names.any writes.contains)).flatMap (fun n => (I.warp.slot? n).names)
  let names := vectorNames (I.reads i) ++ writes
  let xs := I.warp.slotsIn (fun x => x.bound && (x.names.any names.contains || ends.any x.inputs.contains)) ++
    (match i with
      | .rdef _ x => [x.toNat]
      | .rtag _ x => [x.toNat]
      | .rfree x => [x.toNat]
      | .rseal d => (I.warp.tagOf d.toNat).toList
      | .rdrop d => (I.warp.tagOf d.toNat).toList
      | _ => [])
  xs ++ xs.flatMap I.warp.taggedInputs

/-- Whether an instruction acts on a slot on which one issued earlier has yet to act, or writes a name that an earlier `RTAG` has yet to
bind: replays, seals, drops and writes take effect one at a time, in issue order (R148). -/
def Issue.slotsBusy (I : Issue) (i : Instr) : Bool :=
  I.outstanding.any (fun l => (!l.slots.isEmpty && (I.touches i).any l.slots.contains) ||
    (!l.binds.isEmpty && (vectorNames (I.overwrites i)).any l.binds.contains))

/-- Whether an instruction has to wait for registers, slots or sends (R52, R62, R109, R148, R348): a scoreboarded source that is not yet written, and for an
uncovered or interlocked one every source and destination. -/
def Issue.blocked (I : Issue) (i : Instr) : Bool :=
  (I.reads i).any I.unwritten.contains || I.flagsBusy i || I.slotsBusy i || I.sendsBusy i ||
    (I.share.isNone && ((I.overwrites i).any I.unwritten.contains || !(I.warp.pendingOn I.now (I.reads i ++ I.overwrites i)).isEmpty))

/-- The scheduling mode at issue (R52, R61): an instruction waits for its registers, and a checking one faults on an early read. -/
def Issue.scheduled (I : Issue) (i : Instr) : Except Stop Issue :=
  if I.latched then .ok I
  else if I.blocked i then .error (.wait I.st .score)
  else if I.share.isSome && I.warp.mode = .checking && !(I.warp.pendingOn I.now (I.reads i)).isEmpty then
    .error (wholeTrap .stallshort 0 0)
  else .ok I

/-- The issue in a later state of the machine. -/
def Issue.at (I : Issue) (s : State) : Issue :=
  let w := (s.warp? I.ref.warp).getD I.warp
  let f := (w.frag? I.ref.frag).getD I.frag
  { I with
    st := s
    warp := w
    view := if I.viewed then I.view else if f.latch.isSome then f.reads w else if I.share.isNone then w else w.viewAt I.now
    frag := f
    group := (s.group? w.group).getD I.group
    ctx := ((s.ctxOf I.group).map (fun c => c.readBy w.core f)).getD I.ctx }

/-- The vector names that an instruction reads as it begins; `RTAG` reads its inputs after its checks (R138). -/
def Issue.sources (I : Issue) (i : Instr) : List Nat :=
  match i with
  | .rtag _ _ => []
  | i => vectorNames (I.reads i)

/-- The vector names that the instruction writes and that no instruction issued later has written (R113). -/
def Issue.targets (I : Issue) (i : Instr) : List Nat :=
  (vectorNames (I.writes i)).filter (fun n => !((I.frag.latch.map Latch.lost).getD []).any (fun r => r.1 == .v n))

/-- The sources whose registers are dropped, or were when the instruction issued. -/
def Issue.replays (I : Issue) (i : Instr) : List Nat :=
  match I.frag.latch with
  | some l => (I.sources i).filter l.dropped.contains
  | none => (I.sources i).filter (fun v => (I.warp.tagOf v).any (fun n => (I.warp.slot? n).state == .dropped))

/-- Prepares the vector registers: replays of the dropped sources, which drop no register that the instruction reads (R142, R143), then
what the writes do first (R122, R146, R147). -/
def Issue.prepared (I : Issue) (i : Instr) : Except Stop Issue :=
  let srcs := I.replays i
  let dsts := I.targets i
  if srcs.isEmpty && dsts.isEmpty then .ok I
  else
    let keep := I.warp.slotsIn (fun x => x.bound && x.names.any (fun v => (I.sources i).contains v))
    match replayReads I.agent I.ref.warp keep I.st srcs with
    | .error e => .error e
    | .ok s =>
      let view := (I.at s).view
      match beforeWrites I.agent I.ref.warp keep [] dsts s with
      | .error e => .error e
      | .ok s => .ok { I.at s with view := view, replayed := !srcs.isEmpty, viewed := true }

/-- The issue ready to execute, or why it stops before execution, with the issue as far as it came. A conversion checks its entries
before its registers are prepared (R95, R101). -/
def Issue.begin (I : Issue) (i : Instr) : Except (Issue × Stop) Issue :=
  match I.checked i with
  | .error e => .error (I, e)
  | .ok I =>
    match I.scheduled i with
    | .error e => .error (I, e)
    | .ok I =>
      let I := I.at I.st
      match conversionFault I.ctx i with
      | some e => .error (I, e)
      | none =>
        match I.prepared i with
        | .error e => .error (I, e)
        | .ok I => .ok I

/-! ### Completion -/

/-- Where the fragment goes: the next word under its coverage, another word with the coverage ended (R54), or the meaning
has placed the fragments itself. -/
inductive Onward where
  | next
  | jump (pc : Dword)
  | done
  deriving DecidableEq, Repr

/-- What a meaning leaves: the state, where the fragment goes, and whether it ranks youngest (R163). -/
structure Done where
  st       : State
  flow     : Onward := .next
  youngest : Bool := false

abbrev Body := Issue → Except Stop Done

/-- Whether a last-read mark frees a name (R53, R146). -/
def Issue.marks (I : Issue) (i : Instr) (n : Nat) : Bool :=
  I.warp.mapped n && (I.warp.tagOf n).isNone && (I.warp.slotsReading n).isEmpty &&
    !(vectorNames (I.writes i)).contains n && (I.warp.pendingOn I.now [.v n]).isEmpty

/-- The names that the marks of this issue free. -/
def Issue.freed (I : Issue) (i : Instr) : List Nat :=
  match I.share with
  | none => []
  | some c =>
    let sh := shape i
    ((if c.lastA then sh.lastA.toList else []) ++ (if c.lastB then sh.lastB.toList else [])).filter (I.marks i)

/-- A result in flight that takes effect no later than a clock. -/
def InFlight.by (e : InFlight) (t : Nat) : InFlight :=
  match e with
  | .s n r x => .s n (min r t) x
  | .k n r x => .k n (min r t) x
  | .c n r x => .c n (min r t) x
  | .d n r x => .d n (min r t) x
  | .v n r x => .v n (min r t) x

/-- A register that keeps what is written to it; `k0` discards writes (R114). -/
def Reg.kept (r : Reg) : Bool := r != .k 0

/-- A later result in flight once an instruction that issued earlier has written bits or lanes of the register: `after` holds what it
wrote, and the later result is still to come (R113, R190). -/
def InFlight.under (e : InFlight) (after : Warp) (m : Word) : InFlight :=
  match e with
  | .s n r _ => .s n r (after.getS n)
  | .k n r x => .k n r ((after.getK n &&& m) ||| (x &&& ~~~m))
  | .c n r _ => .c n r (after.getC n)
  | .d n r _ => .d n r (after.getD n)
  | .v n r x => .v n r (mergeLanes m (after.getV n) x)

/-- The results in flight after an instruction, which leaves the registers as `after` holds them. An earlier result of a register that
the instruction writes takes effect no later than its own, so that writes take effect in issue order and each result is there after its
latency (R62, R63). -/
def Issue.inflight (I : Issue) (i : Instr) (after : Warp) : List InFlight :=
  let live := I.warp.inflight.filter (fun e => decide (I.now < e.ready))
  let l := if I.replayed ∨ I.latched then 0 else (shape i).latency
  let lost := (I.frag.latch.map Latch.lost).getD []
  if l = 0 then live.filterMap (fun e =>
    if (I.overwrites i).contains e.reg = false then some e
    else if lost.any (fun r => r.1 == e.reg) then some (e.under after (I.bitsOf i e.reg))
    else none)
  else
    live.map (fun e => if (I.writes i).contains e.reg then e.by (I.now + l) else e) ++
      ((I.writes i).filter Reg.kept).map (fun r => r.inFlight I.warp (I.now + l))

/-- The port of a warp (R108). -/
def Warp.port (w : Warp) : Nat :=
  match w.role with
  | .epilogue => w.slot % 4
  | .copy => 4
  | .maths => 5

/-- A fragment's place in the sampling cycle of its core (R449): epilogue slots and records, copy slots, maths slots. -/
def sampleCycle (w : Warp) (f : Frag) : Nat :=
  match w.role with
  | .epilogue => 8 * w.slot + f.record.getD 0
  | .copy => 512 + w.slot
  | .maths => 520 + w.slot

/-- SWHO of a sample record (R451). -/
def sampleWho (w : Warp) (f : Frag) : Word :=
  let rec_ := match w.role with
    | .epilogue => f.record.getD 0
    | _ => 15
  BitVec.ofNat 32 (w.index * 2 ^ 24 + roleNat w.role * 2 ^ 22 + w.core * 2 ^ 16 + rec_ * 2 ^ 8 + w.slot)

/-- The port taken by an issue for some clocks (R108). -/
def Issue.occupy (I : Issue) (n : Nat) (s : State) : State :=
  let u : PortUse :=
    { core := I.warp.core, port := I.warp.port, clock := I.now, till := I.now + n, place := sampleCycle I.warp I.frag,
      pc := I.frag.head, who := sampleWho I.warp I.frag, mark := (if I.warp.markAt = some I.now then I.warp.markOld else I.warp.mark), part := I.group.part, slot := I.group.ctx,
      kid := I.grid.kid }
  { s with portBusy := u :: s.portBusy.filter (fun p => !(p.core == u.core && p.port == u.port)) }

/-- A wait before which the instruction did not issue (R109, R278, R305). -/
def Wait.unissued : Wait → Bool
  | .score => true
  | .engine _ => true
  | .copyUnit => true
  | _ => false

/-- A wait after which the instruction goes on with what it read when it issued. An instruction that waits on a page
re-executes from its chain head (R224), and so does a resumed one. -/
def Wait.latches : Wait → Bool
  | .none => false
  | .parked _ => false
  | .futures _ => false
  | .held => false
  | .behind => false
  | .left _ => false
  | w => !w.unissued

/-- The vector names that an instruction reads and whose registers are dropped. -/
def Issue.droppedReads (I : Issue) (i : Instr) : List Nat :=
  (vectorNames (I.reads i)).filter (fun v => (I.warp.tagOf v).any (fun n => (I.warp.slot? n).state == .dropped))

/-- Whether an `RTAG` reads an input before an earlier result is in it (R61). -/
def Issue.earlyInput (I : Issue) (i : Instr) : Bool :=
  I.share.isSome && !(I.warp.pendingOn I.now ((I.bindings i).map Reg.v)).isEmpty

/-- The index list that a `CPYG` reads at its issue: a word for each row of its shape, from its own core's scratchpad (R315). -/
def Issue.indexList (I : Issue) (i : Instr) : List Nat :=
  match i with
  | .cpyg _ c ss _ _ =>
    (List.range (field (I.view.getPair ss.toNat).toNat 17 8 + 1)).map (fun r =>
      memNat (I.group.spadAt I.warp.pos) (field (I.view.getS (c.toNat + 2)).toNat 0 17 * 64 + 4 * r) 4)
  | _ => []

/-- What an instruction that issues and waits read, and what its registers owe (R53, R62, R80, R88, R116, R119). -/
def Issue.latch (I : Issue) (i : Instr) (w : Wait) : Latch :=
  let names := (vectorNames (I.writes i)).filter (fun n => !I.warp.mapped n)
  { instr := i, stamp := I.st.fresh, clock := I.now, s := I.view.s, c := I.view.c, k := I.view.k, d := I.view.d, v := I.view.v,
    dropped := I.droppedReads i, fmt := I.ctx.fmt, cfg := I.ctx.cfg, srseed := I.ctx.srseed, srctr := I.warp.srctr,
    owed := (I.written i).filter (fun r => r.1.kept), lost := [],
    marks := I.freed i, upto := none, room := (match w with | .claim .. => [] | _ => names), slots := [], binds := I.bindings i,
    early := I.earlyInput i, did := 0, got := [], index := I.indexList i }

/-- A release keeps the store number below which it waits (R259). -/
def Latch.waitsAcks (l : Latch) (w : Wait) : Latch :=
  match w with
  | .acks _ n => { l with upto := some n }
  | .stores _ n => { l with upto := some n }
  | _ => l

/-- Clocks that an instruction holds its port: two for binary64 of class 0x4 (R108). -/
def portClocks : Instr → Nat
  | .vfadd 1#2 .. | .vfsub 1#2 .. | .vfmul 1#2 .. | .vfma 1#2 .. | .vfmin 1#2 .. | .vfmax 1#2 .. | .vfcmp 1#2 ..
  | .vfrnd 1#2 .. | .vfcls 1#2 .. | .vfsqrt 1#1 .. | .vfdiv 1#1 .. => 2
  | _ => 1

/-- The fragment past the instruction. -/
def Issue.advance (I : Issue) (f : Frag) (d : Done) : Frag :=
  let f := { f with stallTill := I.stall, restTill := I.rest, yielded := I.yields || d.youngest }
  match d.flow with
  | .next => { f.complete with stallTill := f.stallTill, restTill := f.restTill, yielded := f.yielded }
  | .jump pc => { f.complete with pc := pc, head := pc, cover := [] }
  | .done => f

/-- Completion: marks, results in flight, the order of writes among fragments, the port and the fragment. An instruction that
had waited holds its port no more. -/
def Issue.retire (I : Issue) (i : Instr) (d : Done) : State :=
  let s := if I.latched then d.st else I.occupy (portClocks i) d.st
  match s.warp? I.ref.warp with
  | none => s
  | some w =>
    let inflight := I.inflight i w
    let w := Warp.landing I.frag I.warp w
    let marks := (I.frag.latch.map Latch.marks).getD (I.freed i)
    let w := { marks.foldl Warp.unmapV w with inflight := inflight }
    let w := w.superseded I.ref.frag (I.frag.latch.map Latch.stamp) (I.written i) (vectorNames (I.overwrites i))
    match d.flow with
    | .done => s.setWarp w
    | _ =>
      match w.frag? I.ref.frag with
      | none => s.setWarp w
      | some f => s.setWarp (w.setFrag (I.advance f d))

/-! ### Running an instruction -/

/-- The latch of an instruction that waits: what it read at issue, and the slots on which it has yet to act. Once its sources are read
and its writes prepared, it keeps the values (R116, R142, R148). -/
def Issue.latchFor (I : Issue) (i : Instr) (w : Wait) (f : Frag) : Latch :=
  let l := (f.latch.getD (I.latch i w)).waitsAcks w
  if I.viewed then { l with v := I.view.v, dropped := [], slots := [] } else { l with slots := I.touches i }

/-- The fragment of an instruction that waits: one that did not issue goes back to its chain head, one whose word is fetched late keeps
its stall and rank, and one that issued has its own, and keeps its latch (R49, R52, R54). -/
def Issue.waitFrag (I : Issue) (i : Instr) (w : Wait) (f : Frag) : Frag :=
  if w.unissued then { f with pc := f.head, chain := [] }
  else
    let f := { f with wait := w, readyFor := 0, promoted := none }
    if i = .instructionFetch then { f with latch := none }
    else
      { f with
        yielded := I.yields
        stallTill := I.stall
        restTill := I.rest
        latch := if w.latches then some (I.latchFor i w f) else none }

/-- The port is held for the clock of an issue that stops. -/
def Issue.leaving (I : Issue) (s : State) : State := if I.latched then s else I.occupy 1 s

/-- Whether a wait keeps an instruction that draws random numbers after its issue: it has taken its number (R88, R190). -/
def Issue.numbered (I : Issue) (w : Wait) (f : Frag) : Bool := w.latches && f.latch.isNone && I.h.m.rnd == 5

/-- The state in which the issuing fragment waits: the wait is noted in the fragment, and the port is taken unless the instruction
did not issue (R109). -/
def Issue.waiting (I : Issue) (i : Instr) (s : State) (w : Wait) : State :=
  let s := if w.unissued then s else I.leaving s
  match s.warp? I.ref.warp with
  | none => s
  | some v =>
    match v.frag? I.ref.frag with
    | none => s
    | some f =>
      let v := if I.numbered w f then { v with srctr := v.srctr + 1 } else v
      { s.setWarp (v.setFrag ((I.at s).waitFrag i w f)) with fresh := if w.unissued then s.fresh else s.fresh + 1 }

/-- The state after a stop: an exception is taken, or the fragment waits. -/
def Issue.stopped (I : Issue) (i : Instr) : Stop → Host.Outcome State Fault Refusal
  | .trap t => .next (I.leaving (I.st.raise I.ref t))
  | .trapAt s t => .next (I.leaving (s.raise I.ref t))
  | .halt f => .fault f
  | .wait s w => .next (I.waiting i s w)

/-- Begins an issue and runs the body. A stop comes with the issue as far as it came. -/
def Issue.attempt (I : Issue) (i : Instr) (body : Body) : Except (Issue × Stop) (Issue × Done) :=
  match I.begin i with
  | .error e => .error e
  | .ok I =>
    match body I with
    | .error e => .error (I, e)
    | .ok d => .ok (I, d)

/-- The trap for the whole fragment, whatever its lanes. -/
def Stop.whole : Stop → Stop
  | .trap t => .trap { t with lanes := none }
  | e => e

/-- Runs an instruction for an issuer: it completes, waits or takes an exception. Lanes that fault park alone where R167
splits the fragment, and the others complete the instruction. -/
def Issue.run (I : Issue) (i : Instr) (body : Body) : Host.Outcome State Fault Refusal :=
  match I.attempt i body with
  | .ok (J, d) => .next (J.retire i d)
  | .error (J, .trap t) =>
    if t.splits I.warp I.frag then
      let I' := I.at (I.st.raise I.ref t)
      match I'.attempt i body with
      | .ok (J, d) => .next (J.retire i d)
      | .error (J, e) => { J with st := I'.st }.stopped i e.whole
    else { J with st := I.st }.stopped i (.trap t)
  | .error (J, e) => { J with st := I.st }.stopped i e

/-- The issue of an instruction past which `SKIP` goes further than one word: `RDEF`, past the body that it records (R137). -/
def Issue.over (I : Issue) (i : Instr) : Issue :=
  match i with
  | .rdef c _ =>
    I.at (I.put (I.warp.setFrag { I.frag with skip := I.frag.pc + BitVec.ofNat 64 (4 * (c.toNat + 2)) }))
  | _ => I

/-- Runs an instruction of the fragment that issues. -/
def runInstr (i : Instr) (body : Body) (s : State) : Host.Outcome State Fault Refusal :=
  match s.issuer with
  | none => .refused .noIssuer
  | some I => (I.over i).run i body

end Sys2Proof.Machine
end

