-- ==== Sys2Proof/Machine/Select.lean ====
section
/-! DEFINITION. Fetching a word (R49, R241), the ports' choice (R108 to R110), the states of warps and groups that
waiting gives (R102, R366), and the chain of hints as it is executed. -/

namespace Sys2Proof.Machine

/-! ### Instruction fetch -/

/-- The reads that the fetch of a word sends: its walk's, and its own (R236, R273). -/
def Issue.fetchReads (I : Issue) (s : State) (va key : Nat) : Option State :=
  s.crossReads I.sender (s.walksKeys I.agent.master I.ctx .fetch [va] ++ [key])

/-- The word at the program counter, or why the fetch stops (R49, R225, R241, R245). The page must allow fetches; the word
is read at its home, and the fragment is not ready while that, or the walk, is out of reach (R436, R440). -/
def Issue.fetch (I : Issue) : Except Stop Word :=
  let va := vaMask I.frag.pc.toNat
  let stale := [(Access.fetch, va)]
  match I.st.translate I.agent.master I.ctx .fetch va with
    | .ok key =>
      if I.st.reaches (dieOf I.warp.core) 0 key && (I.fetchReads I.st va key).isSome then .ok (bytesWord (memReads I.st.mem key 4))
      else .error (.wait I.st .score)
    | .stalled _ => .error (.wait I.st .score)
    | .prot cause => .error (.trap { code := .prot, aux := BitVec.ofNat 32 cause, addr := I.frag.pc, stale := stale })
    | .nowhere => .error (.halt .noSuchPhysicalAddress)
    | .waits mig =>
      let (s, w) := (I.st.forget I.agent.master stale).waitOnPages I.agent.part I.agent.slot
        ((pageJoins [(0, va, mig)] I.warp.core false).map (fun j => { j with addr := I.frag.pc, lanes := none }))
      .error (.wait s w)

/-- What the fetch of a word leaves: its walk and its read cross to their homes (R273), and a cached translation that denied it is
discarded (R241). -/
def Issue.fetchTraffic (I : Issue) (s : State) (pc : Dword) : State :=
  let va := vaMask pc.toNat
  match s.translate I.agent.master I.ctx .fetch va with
  | .ok key => ((I.fetchReads s va key).getD s).forget I.agent.master [(.fetch, va)]
  | _ => s

/-- The state after the fetch of the issuing fragment's next word. -/
def State.fetched (s : State) : State := (s.issuer).elim s (fun I => I.fetchTraffic s I.frag.pc)

/-! ### Hint words (R47, R49) -/

/-- A hint word joins its chain; a fifth is `UD` at once, and `SKIP` then goes on after it. -/
def Issue.hint (I : Issue) (i : Instr) : Host.Outcome State Fault Refusal :=
  if I.frag.chain.length = 4 then I.stopped i (wholeTrap .ud (hintWord i).toNat 0)
  else .next (I.put (I.warp.setFrag { I.frag with chain := I.frag.chain ++ [i], pc := I.frag.pc + 4 }))

/-- Runs a hint word of the fragment that issues. -/
def runHint (i : Instr) (s : State) : Host.Outcome State Fault Refusal :=
  match s.issuer with
  | none => .refused .noIssuer
  | some I => I.hint i

/-! ### Blocking points (R168, R376) -/

/-- A wait that is a blocking point by itself. -/
def Wait.blocking : Wait → Bool
  | .parked _ => true
  | .barrier .. => true
  | .member _ => true
  | .queue .. => true
  | .futures _ => true
  | .claim .. => true
  | .signal .. => true
  | .remote _ _ late _ => late
  | _ => false

/-- Whether every fragment of a warp is at a blocking point; lanes held at a `CVWAIT`, and fragments queued without a record,
count once no fragment runs (R112, R168, R366). -/
def Warp.stuck (w : Warp) : Bool :=
  w.frags.all (fun f => f.wait.blocking || f.wait == .held || f.wait == .behind || (w.role == .epilogue && f.record.isNone))

/-- Whether a resident group is Waiting (R366). -/
def State.groupWaits (s : State) (g : Group) : Bool :=
  let ws := s.warpsOf g
  !ws.isEmpty && ws.all (fun w => w.started && w.stuck)

/-- The requests of a group that becomes Waiting: those whose deadline has not passed have nothing to report (R380). -/
def State.inTime (s : State) (g : Group) : List Preempt :=
  g.preempt.map (fun p => { p with late := p.late || !s.olderThan p.since (((s.ctxOf g).map (fun c => c.pdl.toNat)).getD 0) })

/-- Running and Waiting groups follow their warps (R365, R366); a group just Waiting notes the time. -/
def State.settleGroup (s : State) (g : Group) : Group :=
  match g.state with
  | .running =>
    if s.groupWaits g then { g with state := .waiting, waitingAt := s.ticks, hungRaised := false, preempt := s.inTime g } else g
  | .waiting => if s.groupWaits g then g else { g with state := .running }
  | _ => g

def State.settleGroups (s : State) : State := { s with groups := s.groups.map s.settleGroup }

/-! ### Beginning an issue -/

/-- The state in which a fragment issues its next word: the warp has started (R102, R365), and `SKIP` goes on after this word
(R49). -/
def State.issuing (s : State) (r : FragRef) : State :=
  let s := { s with cur := some r }
  match s.warp? r.warp with
  | none => s
  | some w =>
    match w.frag? r.frag with
    | none => s
    | some f =>
      let f := { f with skip := f.pc + 4 }
      let s := s.setWarp { w.setFrag f with started := true }
      match s.group? w.group with
      | none => s
      | some g => if g.state = .placed then s.setGroup { g with state := .running } else s

/-- The instruction at the program counter of the issuing fragment: the decoded word, or the fetch when it stops. -/
def State.nextInstr (s : State) : Instr :=
  match s.issuer with
  | none => .instructionFetch
  | some I =>
    match I.fetch with
    | .error _ => .instructionFetch
    | .ok w =>
      match Sys2Proof.decode w with
      | .ok i => i
      | .error _ => .unassignedEncoding w

/-! ### Turns of the model's own -/

/-- The oldest entry of a full store buffer performs (R256). How many entries fill it, the spec does not say: a turn of the
agenda says when (log entry 11). -/
def State.drainOldest (s : State) (core : Nat) : State :=
  match s.sbuf.find? (fun e => e.core == core) with
  | some e => s.performWhere (fun f => f.core == core && f.seq == e.seq)
  | none => s

/-- A translation cache keeps the valid entry of a level on the walk for an address: its leaf or a table pointer (R242). It holds a
CONT group as one entry. Its walk reaches every table that it reads (R436, R438). -/
def State.cacheEntry (s : State) (part slot va level : Nat) : State :=
  match s.ctx? part slot with
  | none => s
  | some c =>
    match (if s.walk c.headbox c va matches .stalled _ then none else (s.trailFrom va 4 c.ptroot.toNat).find? (fun x => x.1 == level)) with
    | none => s
    | some (_, e) =>
      let size := if e.testBit 2 then leafSize level (e.testBit 5) else 2 ^ (12 + 9 * level)
      let t : TlbEntry :=
        { part := part, slot := slot, base := va / size * size, size := size, level := level, pte := BitVec.ofNat 64 e }
      if s.tlb.any (fun x => x.covers part slot va && x.level == level) then s else { s with tlb := t :: s.tlb }

/-- A line leaves the L2: its release tags drain first (R268). -/
def State.evictLine (s : State) (line : Nat) : State := s.requestDrain line

end Sys2Proof.Machine
end

