-- ==== Sys2Proof/Machine/Images.lean ====
section
/-! DEFINITION. The images of queues and barriers in the scratchpad, and the events that act on them (R327 to R341, R349 to
R356). -/

namespace Sys2Proof.Machine

/-! ### Where the images lie (R327, R328, R349) -/

/-- The declared CFG word of a queue, zero when it is not declared. -/
def KernelDesc.queueCfg (kd : KernelDesc) (q : Nat) : Nat := (kd.queues.getD q 0).toNat

def queueDepth (cfg : Nat) : Nat := field cfg 0 7

/-- The bytes of an instance (R328). -/
def queueBytes (cfg : Nat) : Nat := if cfg = 0 then 0 else 64 + roundUp (4 * queueDepth cfg) 64

def KernelDesc.queueBase (kd : KernelDesc) (q : Nat) : Nat :=
  (List.range q).foldl (fun a n => a + queueBytes (kd.queueCfg n)) 0

/-- The declared CFG byte of a barrier, zero when it is not declared. -/
def KernelDesc.barrierCfg (kd : KernelDesc) (b : Nat) : Nat := (kd.bars.getD b 0).toNat

def KernelDesc.barrierBase (kd : KernelDesc) (b : Nat) : Nat :=
  kd.queueBase 16 + 32 * onesBelow (fun n => kd.barrierCfg n != 0) b

/-! ### Scratchpads -/

/-- The scratchpad of a span position changed. -/
def State.setSpadOf (s : State) (gid pos : Nat) (m : List Host.Cell) : State :=
  match s.group? gid with
  | some g => s.setGroup (g.setSpad pos m)
  | none => s

def State.spadOf (s : State) (gid pos : Nat) : List Host.Cell := ((s.group? gid).map (fun g => g.spadAt pos)).getD []

/-- The kernel of a group, empty when it has gone. -/
def State.kernelOf (s : State) (gid : Nat) : KernelDesc := ((s.group? gid).bind s.kdOf).getD KernelDesc.empty

/-! ### Queue instances (R328) -/

/-- The fields of an instance that the instructions use. -/
structure Ring where
  cfg   : Nat
  rix   : Nat
  pix   : Nat
  state : Nat
  deriving DecidableEq, Repr

def ringAt (m : List Host.Cell) (base : Nat) : Ring :=
  { cfg := memNat m base 4, rix := memNat m (base + 4) 4, pix := memNat m (base + 8) 4, state := memNat m (base + 16) 16 }

/-- The state of a slot: 0 Empty, 1 Reserved, 2 Full, 3 Taken (R328). -/
def Ring.slot (r : Ring) (n : Nat) : Nat := field r.state (2 * n) 2

def Ring.setSlot (r : Ring) (n x : Nat) : Ring := { r with state := r.state - r.slot n * 4 ^ n + x * 4 ^ n }

/-- The counts and states written back. -/
def putRing (m : List Host.Cell) (base : Nat) (r : Ring) : List Host.Cell :=
  memSetNat (memSetNat (memSetNat m (base + 4) 4 r.rix) (base + 8) 4 r.pix) (base + 16) 16 r.state

/-- A malformed image (R334, cause 7). -/
def ringMalformed (m : List Host.Cell) (base cfg : Nat) : Bool :=
  let r := ringAt m base
  r.cfg != cfg || memNat m (base + 12) 4 != 0 || memNat m (base + 32) 32 != 0 || decide (4 ^ queueDepth cfg ≤ r.state)

/-- The word of a slot. -/
def slotAddr (base n : Nat) : Nat := base + 64 + 4 * n

/-- Whether a kill of a warp has yet to take effect: the warp issues nothing more, and its waits are withdrawn (R405). -/
def State.dying (s : State) (w : Warp) : Bool :=
  (s.group? w.group).any (fun g => g.kills.any (fun k => k.role == w.role && k.index == w.index))

/-- The fragments that wait on a queue instance, oldest first; `prod` chooses the line (R340). -/
def State.queueLine (s : State) (gid pos q : Nat) (prod : Bool) : List (FragRef × QueueOp) :=
  let all : List (Nat × FragRef × QueueOp) :=
    (s.warps.filter (fun w => w.group == gid && w.pos == pos && !s.dying w)).flatMap (fun w => w.frags.filterMap (fun f =>
      match f.wait with
      | .queue n op stamp =>
        let isProd := match op with | .pop _ => false | _ => true
        if n = q ∧ isProd = prod then some (stamp, { warp := w.uid, frag := f.id }, op) else none
      | _ => none))
  (sortBy Prod.fst all).map Prod.snd

/-- A waiting fragment completes, after a change of its warp's registers. -/
def State.completeFrag (s : State) (r : FragRef) (regs : Warp → Warp) : State :=
  match s.warp? r.warp with
  | none => s
  | some w =>
    match w.frag? r.frag with
    | none => s
    | some f => s.setWarp (w.finishing f regs)

/-- A waiting fragment goes back to its chain head. -/
def State.retryFrag (s : State) (r : FragRef) : State :=
  match s.warp? r.warp with
  | none => s
  | some w =>
    match w.frag? r.frag with
    | none => s
    | some f => s.setWarp (w.setFrag f.retry)

/-- A queue operation on the slot it takes (R335, R337): the instance, the slot words, and the registers. -/
def QueueOp.act (op : QueueOp) (m : List Host.Cell) (base depth : Nat) : List Host.Cell × (Warp → Warp) :=
  let r := ringAt m base
  match op with
  | .push h =>
    let n := r.rix % depth
    (putRing (memSetNat m (slotAddr base n) 4 h.toNat) base { r.setSlot n 2 with rix := (r.rix + 1) % 2 ^ 32 }, id)
  | .reserve d =>
    let n := r.rix % depth
    (putRing m base { r.setSlot n 1 with rix := (r.rix + 1) % 2 ^ 32 }, fun w => w.setS d (BitVec.ofNat 32 n))
  | .pop d =>
    let n := r.pix % depth
    let h := memNat m (slotAddr base n) 4
    (putRing m base { r.setSlot n 3 with pix := (r.pix + 1) % 2 ^ 32 },
      fun w => (w.setS d (BitVec.ofNat 32 h)).setS (d + 1) (BitVec.ofNat 32 n))

/-- Whether the slot that an operation takes next is free for it. -/
def QueueOp.ready (op : QueueOp) (r : Ring) (depth : Nat) : Bool :=
  match op with
  | .pop _ => r.slot (r.pix % depth) == 2
  | _ => r.slot (r.rix % depth) == 0

/-- Waiters of an instance complete for as long as the oldest of a line finds its slot (R340). -/
def settleQueue : Nat → State → Nat → Nat → Nat → State
  | 0, s, _, _, _ => s
  | fuel + 1, s, gid, pos, q =>
    let kd := s.kernelOf gid
    let base := kd.queueBase q
    let depth := queueDepth (kd.queueCfg q)
    let m := s.spadOf gid pos
    let first := fun prod => ((s.queueLine gid pos q prod).head?).filter (fun w => w.2.ready (ringAt m base) depth)
    match (first true).or (first false) with
    | none => s
    | some (ref, op) =>
      let (m, regs) := op.act m base depth
      settleQueue fuel ((s.setSpadOf gid pos m).completeFrag ref regs) gid pos q

/-- The queues of a span position settled after its scratchpad changed. -/
def State.settleQueues (s : State) (gid pos : Nat) : State :=
  (List.range 16).foldl (fun s q =>
    if (s.queueLine gid pos q true).isEmpty && (s.queueLine gid pos q false).isEmpty then s
    else settleQueue 512 s gid pos q) s

/-- A scratchpad written, with the queues that its images hold. -/
def State.writeSpad (s : State) (gid pos : Nat) (m : List Host.Cell) : State := (s.setSpadOf gid pos m).settleQueues gid pos

/-- Whether a wait on a queue of a span position would be orphaned (R341). -/
def State.orphaned (s : State) (gid pos q : Nat) (prod : Bool) : Bool :=
  match s.group? gid with
  | none => false
  | some g =>
    let cfg := (s.kernelOf gid).queueCfg q
    let roles := (List.range 3).filter (fun r => cfg.testBit ((if prod then 11 else 8) + r))
    roles.all (fun r => g.pend.getD r 0 == 0 &&
      !s.warps.any (fun w => w.group == gid && w.pos == pos && roleNat w.role == r))

/-- Every waiter of an orphaned line faults with cause 6 (R341). -/
def State.faultOrphans (s : State) (gid : Nat) : State :=
  match s.group? gid with
  | none => s
  | some g =>
    (List.range g.span).foldl (fun s pos =>
      (List.range 16).foldl (fun s q =>
        [true, false].foldl (fun s prod =>
          if s.orphaned gid pos q prod then
            (s.queueLine gid pos q prod).foldl (fun s w => s.raise w.1 { code := .queue, detail := 6, aux := BitVec.ofNat 32 q }) s
          else s) s) s) s

/-! ### Barrier images (R349, R350) -/

structure Bar where
  cfg  : Nat
  pseq : Nat
  mem  : Nat
  join : Nat
  arr  : Nat
  exp  : Nat
  rcv  : Nat
  deriving DecidableEq, Repr

def barAt (m : List Host.Cell) (a : Nat) : Bar :=
  { cfg := memNat m a 4, pseq := memNat m (a + 4) 4, mem := memNat m (a + 8) 2, join := memNat m (a + 10) 2,
    arr := memNat m (a + 12) 2, exp := memNat m (a + 16) 8, rcv := memNat m (a + 24) 8 }

def putBar (m : List Host.Cell) (a : Nat) (b : Bar) : List Host.Cell :=
  memSetNat (memSetNat (memSetNat (memSetNat (memSetNat (memSetNat (memSetNat m a 4 b.cfg) (a + 4) 4 b.pseq) (a + 8) 2 b.mem)
    (a + 10) 2 b.join) (a + 12) 2 b.arr) (a + 16) 8 b.exp) (a + 24) 8 b.rcv

/-- The home image of a barrier of a group (R350). -/
def State.barOf (s : State) (gid b : Nat) : Bar := barAt (s.spadOf gid 0) ((s.kernelOf gid).barrierBase b)

/-- The home image written, and the CFG and PSEQ of the mirrors when they changed (R350). -/
def State.setBar (s : State) (gid b : Nat) (x : Bar) : State :=
  let a := (s.kernelOf gid).barrierBase b
  let old := s.barOf gid b
  let s := s.setSpadOf gid 0 (putBar (s.spadOf gid 0) a x)
  if old.cfg = x.cfg ∧ old.pseq = x.pseq then s
  else
    let span := ((s.group? gid).map Group.span).getD 0
    (List.range (span - 1)).foldl (fun s p =>
      s.setSpadOf gid (p + 1) (memSetNat (memSetNat (s.spadOf gid (p + 1)) a 4 x.cfg) (a + 4) 4 x.pseq)) s

/-- A malformed home image (R364). -/
def State.barMalformed (s : State) (g : Group) (b : Nat) : Bool :=
  let x := s.barOf g.uid b
  let a := (s.kernelOf g.uid).barrierBase b
  decide (256 ≤ x.cfg) || !x.cfg.testBit 7 || field x.cfg 3 4 != 0 || field x.cfg 0 3 != (g.roles.getD b 0).toNat ||
    memNat (s.spadOf g.uid 0) (a + 14) 2 != 0 || decide (x.mem < x.arr)

/-- The live lanes of a warp (R354). -/
def Warp.liveLanes (w : Warp) : Word := w.frags.foldl (fun m f => m ||| f.lanes) 0

/-- Whether a warp has arrived in the phase in progress (R354). -/
def Warp.arrivedAt (w : Warp) (b : Nat) : Bool :=
  let la := w.la.getD b 0
  la != 0 && w.liveLanes &&& ~~~la == 0

def Warp.setLa (w : Warp) (b : Nat) (m : Word) : Warp := { w with la := w.la.setIfInBounds b m }
def Warp.setPar (w : Warp) (b : Nat) (p : Bool) : Warp :=
  { w with wpar := maskUpTo (fun i => if i = b then p else w.wpar.getLsbD i) 16 }
def Warp.setPending (w : Warp) (b : Nat) (p : Bool) : Warp :=
  { w with pending := maskUpTo (fun i => if i = b then p else w.pending.getLsbD i) 16 }

/-- A change of every warp of a group. -/
def State.mapWarps (s : State) (gid : Nat) (f : Warp → Warp) : State :=
  { s with warps := s.warps.map (fun w => if w.group = gid then f w else w) }

/-- What the completion of a phase of parity `p` does to a waiting fragment of a warp (R355, R356, R360). -/
def wakeBarrier (b : Nat) (p : Bool) (w : Warp) : Warp :=
  w.frags.foldl (fun w f =>
    match f.wait with
    | .barrier n q own _ =>
      if n = b ∧ q = p then w.finishing f (fun w => if own then w.setPar b (!p) else w) else w
    | .member n => if n = b then w.setFrag f.retry else w
    | _ => w) w

/-- The fragments of a group that wait on a barrier. -/
def State.barWaiters (s : State) (gid b : Nat) : List FragRef :=
  (s.warps.filter (fun w => w.group == gid)).flatMap (fun w => w.frags.filterMap (fun f =>
    match f.wait with
    | .barrier n _ _ _ => if n = b then some { warp := w.uid, frag := f.id } else none
    | .member n => if n = b then some { warp := w.uid, frag := f.id } else none
    | _ => none))

def Group.isBroken (g : Group) (b : Nat) : Bool := g.broken.getLsbD b
def Group.setBroken (g : Group) (b : Nat) (x : Bool) : Group :=
  { g with broken := maskUpTo (fun i => if i = b then x else g.broken.getLsbD i) 16 }

/-- The completion test after an event (R355). -/
def State.testBarrier (s : State) (gid b : Nat) : State :=
  match s.group? gid with
  | none => s
  | some g =>
    let x := s.barOf gid b
    if g.isBroken b ∨ x.arr ≠ x.mem then s
    else if x.rcv = x.exp then
      let p := x.pseq.testBit 0
      let s := s.setBar gid b { x with pseq := (x.pseq + 1) % 2 ^ 32, mem := (x.mem + x.join) % 2 ^ 16, join := 0, arr := 0,
                                       exp := 0, rcv := 0 }
      s.mapWarps gid (fun w => wakeBarrier b p ((w.setLa b 0).setPending b false))
    else if x.exp < x.rcv then
      let ws := s.barWaiters gid b
      ws.foldl (fun s r => s.raise r { code := .barrier, detail := 4, aux := BitVec.ofNat 32 b }) (s.setGroup (g.setBroken b true))
    else s

/-- A credit of bytes by a copy (R322, R355). -/
def State.creditBarrier (s : State) (gid b n : Nat) : State :=
  let x := s.barOf gid b
  (s.setBar gid b { x with rcv := (x.rcv + n) % 2 ^ 64 }).testBarrier gid b

/-- Bytes added by `BARX` (R359). -/
def State.expectBytes (s : State) (gid b n : Nat) : State :=
  let x := s.barOf gid b
  s.setBar gid b { x with exp := (x.exp + n) % 2 ^ 64 }

/-- One more warp has arrived. -/
def State.countArrival (s : State) (gid b : Nat) : State :=
  let x := s.barOf gid b
  s.setBar gid b { x with arr := (x.arr + 1) % 2 ^ 16 }

/-- The lanes of a fragment arrive (R354), before the completion test. -/
def State.arrive (s : State) (uid b : Nat) (lanes : Word) : State :=
  match s.warp? uid with
  | none => s
  | some w =>
    let w' := w.setLa b (w.la.getD b 0 ||| lanes)
    let s := s.setWarp w'
    if w'.arrivedAt b && !w.arrivedAt b then s.countArrival w.group b else s

/-- The barriers of a group that include a role (R364 for the roles in force). -/
def State.barriersOf (s : State) (g : Group) (r : Role) : List Nat :=
  (List.range 16).filter (fun b => (s.kernelOf g.uid).barrierCfg b != 0 && (g.roles.getD b 0).getLsbD (roleNat r))

/-- A warp departs from every barrier that includes its role (R356). -/
def State.departBarriers (s : State) (w : Warp) : State :=
  match s.group? w.group with
  | none => s
  | some g =>
    (s.barriersOf g w.role).foldl (fun s b =>
      let x := s.barOf g.uid b
      let x := if w.pending.getLsbD b then { x with join := (x.join + 2 ^ 16 - 1) % 2 ^ 16 }
        else { x with mem := (x.mem + 2 ^ 16 - 1) % 2 ^ 16,
                      arr := if w.arrivedAt b then (x.arr + 2 ^ 16 - 1) % 2 ^ 16 else x.arr }
      (s.setBar g.uid b x).testBarrier g.uid b) s

/-- A warp that attaches becomes a pending member of every barrier that includes its role (R351, R356). -/
def State.joinBarriers (s : State) (uid : Nat) : State :=
  match s.warp? uid with
  | none => s
  | some w =>
    match s.group? w.group with
    | none => s
    | some g =>
      let s := s.setWarp { w with wpar := maskUpTo (fun b => (s.kernelOf g.uid).barrierCfg b != 0 &&
        (s.barOf g.uid b).pseq.testBit 0) 16 }
      (s.barriersOf g w.role).foldl (fun s b =>
        let x := s.barOf g.uid b
        let s := s.setBar g.uid b { x with join := (x.join + 1) % 2 ^ 16 }
        (s.mapWarps g.uid (fun v => if v.uid = uid then v.setPending b true else v)).testBarrier g.uid b) s

/-! ### The groups of a grid (R369, R429) -/

/-- The roles of each declared barrier. -/
def KernelDesc.freshRoles (kd : KernelDesc) : Vector (BitVec 3) 16 := Vector.ofFn (fun b => BitVec.ofNat 3 (kd.barrierCfg b.val))

/-- The grid's next group, Pending; indexes of killed groups are passed over (R369, R405). -/
def nextGroup : Nat → State → Nat → State
  | 0, s, _ => s
  | fuel + 1, s, uid =>
    match s.grid? uid with
    | none => s
    | some grid =>
      let n := grid.next
      if grid.x * grid.y * grid.z ≤ n then s
      else if grid.killed.contains n then nextGroup fuel (s.setGrid { grid with next := n + 1 }) uid
      else
        let g : Group :=
          { uid := s.fresh, grid := uid, part := grid.part, ctx := grid.ctx, gx := BitVec.ofNat 32 (n % grid.x),
            gy := BitVec.ofNat 32 (n / grid.x % grid.y), gz := BitVec.ofNat 32 (n / grid.x / grid.y), linear := n,
            state := .pending, places := [], pend := [0, 0, 0], evct := 0, roles := grid.kd.freshRoles, broken := 0,
            placedAt := 0, waitingAt := 0, unplacedAt := grid.since, resumable := none, evictedAt := 0, preempt := [],
            hungRaised := false, hungSince := none, saved := none, savedWarps := [], savedPool := [], savedWaits := [],
            kills := [], storesAt := [], doomed := false }
        { s.setGrid { grid with next := n + 1 } with groups := s.groups ++ [g], fresh := s.fresh + 1 }

/-! ### Releases at a scope (R259, R265, R270, R274) -/

/-- The scope of a group (R270): core for a span of 1, quire otherwise. -/
def Group.scope (g : Group) : Nat := if g.span ≤ 1 then 0 else 1

/-- A release of a core, of the accesses before store number `upto`. Wider than core, the core's store buffer performs, and the
release waits until those accesses have performed at their homes, and at system scope for the acknowledgement of those to host and
peer memory (R259, R265, R274). -/
def State.release (s : State) (core scope upto : Nat) : Except Stop State :=
  if scope = 0 then .ok s
  else
    let s := s.performWhere (fun e => e.core == core && decide (e.seq < upto))
    if s.unperformed core upto || (scope == 4 && s.unacknowledged core upto) then .error (.wait s (.acks (scope == 4) upto)) else .ok s

/-- The store number below which the issuer's release waits for accesses: that of its issue. -/
def Issue.upto (I : Issue) (s : State) : Nat := (I.frag.latch.bind Latch.upto).getD (s.storeNumber I.warp.core)

/-- A release by the issuing instruction. -/
def Issue.release (I : Issue) (s : State) (scope : Nat) : Except Stop State := s.release I.warp.core scope (I.upto s)

/-- Whether an access of some lanes of a warp, before store number `upto`, waits in the store buffer or has not performed. -/
def State.lanesUnperformed (s : State) (warp : Nat) (lanes : Word) (upto : Nat) : Bool :=
  s.sbuf.any (fun e => e.from_.warp == warp && e.from_.lanes &&& lanes != 0 && decide (e.seq < upto)) ||
    s.flows.any (fun f => f.held.any (fun m =>
      m.ordered && !m.performed && m.from_.warp == warp && m.from_.lanes &&& lanes != 0 && decide (m.order < upto)))

/-- A release half of core scope: the accesses of the issuing lanes before it perform (R265). -/
def Issue.releaseOwn (I : Issue) (s : State) : Except Stop State :=
  let upto := I.upto s
  let s := s.performWhere (fun e => e.from_.warp == I.ref.warp && e.from_.lanes &&& I.active != 0 && decide (e.seq < upto))
  if s.lanesUnperformed I.ref.warp I.active upto then .error (.wait s (.stores I.active upto)) else .ok s

end Sys2Proof.Machine
end

