-- ==== Sys2Proof/Machine/Lives.lean ====
section
/-! DEFINITION. How lanes, warps and groups end, and how fragments merge (R104, R165, R166, R354, R356, R374). -/

namespace Sys2Proof.Machine

/-! ### Merging (R166) -/

/-- The fragments held at the convergence entry on top of a stack. -/
def Warp.heldAt (w : Warp) (conv : List Conv) : List Frag := w.frags.filter (fun f => f.wait == .held && f.conv == conv)

/-- Merges the fragments held at one entry, when every lane of its mask waits there or has ended. The merged fragment keeps the stall
bound and the yield of the `CVWAIT` of the fragment with the lowest lane, which the spec leaves open (log entry 103). -/
def Warp.mergeAt (w : Warp) (conv : List Conv) : Warp :=
  match conv with
  | [] => w
  | e :: rest =>
    let hs := w.heldAt conv
    let lanes := hs.foldl (fun m f => m ||| f.lanes) 0
    if e.m &&& w.liveLanes &&& ~~~lanes != 0 then w
    else match hs.find? (fun f => f.lanes.getLsbD (lowestLane lanes)) with
      | none => w
      | some f =>
        let merged : Frag :=
          { f with lanes := lanes, conv := rest, pc := f.skip, head := f.skip, chain := [], cover := [], wait := .none,
                   record := none, granted := false, denied := 0, arrived := none, readyFor := 0, promoted := none,
                   passed := none, latch := none, bytes := [] }
        Warp.assignRecords { w with frags := w.frags.filter (fun x => !hs.any (fun h => h.id == x.id)) ++ [merged] }

/-- Merges at every entry that is complete. -/
def Warp.mergeAll (w : Warp) : Warp :=
  ((w.frags.filter (fun f => f.wait == .held)).map Frag.conv).foldl Warp.mergeAt w

/-! ### Locks (R232, R234, R235) -/

/-- The lock of a scratchpad address on its core: bank and bit (R232). The addresses are of the group's own scratchpad. -/
def lockOf (a : Nat) : Nat := a / 4 % 64 * 4 + (field a 8 2 ^^^ field a 10 2)

/-- Whether a lock of a core is held by some lane. -/
def State.lockHeld (s : State) (core lock : Nat) : Bool :=
  s.warps.any (fun w => w.core == core && w.locks.any (fun l => lockOf l.2 == lock))

/-- The locks of some lanes released. -/
def Warp.releaseLocks (w : Warp) (m : Word) : Warp := { w with locks := w.locks.filter (fun l => !m.getLsbD l.1) }

/-! ### The end of a warp (R104, R374) -/

/-- A warp ends: its lanes end, and its registers, slots, locks and budget return (R374); then it departs from its barriers, as a
release of its accesses (R270, R356), and the group enters Retiring with its last warp. Records of its fragments stay live, and
answers to them find no fragment (R403). -/
def State.endWarp (s : State) (uid : Nat) : State :=
  match s.warp? uid with
  | none => s
  | some w =>
    let s := if ((s.group? w.group).map Group.scope).getD 0 = 0 then s else s.drainCore w.core
    let s := { s with warps := s.warps.filter (fun x => x.uid != uid) }
    let s := s.departBarriers w
    let s := match s.group? w.group with
      | some g => if (s.warpsOf g).isEmpty then s.setGroup { g with state := .retiring } else s
      | none => s
    (s.grantOnCore w.core).faultOrphans w.group

/-- A wait after which an instruction that issued still acts, whatever becomes of its fragment; the others are blocking points, which an
end withdraws, or leave nothing to do (R104, R379, R405). -/
def Wait.acts : Wait → Bool
  | .none => true
  | .tile .. => true
  | .line _ => true
  | .promotion _ => true
  | .snoop _ => true
  | .lock _ => true
  | .format _ own => !own
  | .access => true
  | .acks .. => true
  | .stores .. => true
  | .walk _ => true
  | .crossing .. => true
  | _ => false

/-- An instruction that issued and has yet to complete. -/
def Frag.acts (f : Frag) : Bool := f.latch.isSome && f.wait.acts

/-- The same, but for one that waits for a path in a context that is destroyed: its messages are discarded unperformed (R441). -/
def Frag.actsIn (f : Frag) (destroyed : Bool) : Bool :=
  f.acts && !(destroyed && ((f.wait matches .crossing ..) || (f.wait matches .walk _)))

/-- Whether the warp of a fragment has issued other instructions that are still to act. -/
def Warp.othersAct (w : Warp) (frag : Nat) : Bool := w.frags.any (fun f => f.id != frag && f.acts)

/-- The warp that a kill names, in its group. -/
def State.warpOfKill (s : State) (gid : Nat) (k : Kill) : Option Warp :=
  s.warps.find? (fun w => w.group == gid && w.role == k.role && w.index == k.index)

/-- A kill of a group changed, or gone. -/
def State.mapKill (s : State) (gid : Nat) (k : Kill) (f : Kill → Option Kill) : State :=
  match s.group? gid with
  | none => s
  | some g =>
    s.setGroup { g with kills := g.kills.filterMap (fun x => if x.role = k.role ∧ x.index = k.index then f x else some x) }

/-- A killed warp of a resident group ends once the instructions that it issued are complete, and its accesses have performed as its
departure's release asks (R104, R270, R356, R405). -/
def State.stepKill (s : State) (gid : Nat) (k : Kill) : State :=
  match s.group? gid, s.warpOfKill gid k with
  | some g, some w =>
    if w.frags.any (fun f => f.actsIn ((s.ctxOf g).any (fun c => c.state == .destroying))) then s
    else
      let upto := k.upto.getD (s.storeNumber w.core)
      match s.release w.core g.scope upto with
      | .ok s => (s.mapKill gid k (fun _ => none)).endWarp w.uid
      | .error (.wait s _) => s.mapKill gid k (fun x => some { x with upto := some upto })
      | .error _ => s
  | _, _ => s.mapKill gid k (fun _ => none)

/-- A command of a partition's debug registers ends with a status (R405). -/
def State.setDbgst (s : State) (part : Nat) (x : BitVec 2) : State :=
  { s with parts := s.parts.setIfInBounds part { s.parts.getD part Part.reset with dbgst := x } }

/-- Whether a group holds its warps on cores, where a kill acts on them. -/
def GroupState.onCores : GroupState → Bool
  | .placed => true
  | .running => true
  | .waiting => true
  | _ => false

/-- The kills of a group on its cores, each as far as it goes; DBGST reads 1 once those of its command have taken effect. -/
def State.stepKills (s : State) (gid : Nat) : State :=
  match s.group? gid with
  | none => s
  | some g =>
    if g.state.onCores = false then s
    else
      let debug := fun (ks : List Kill) => ks.any Kill.debug
      let s := g.kills.foldl (fun s k => s.stepKill gid k) s
      if debug g.kills && !debug (((s.group? gid).map Group.kills).getD []) then s.setDbgst g.part 1 else s

/-- Warps of a group are to end, before they issue again. -/
def State.kill (s : State) (gid : Nat) (debug : Bool) (ks : List (Role × Nat)) : State :=
  match s.group? gid with
  | none => s
  | some g =>
    (s.setGroup { g with kills := g.kills ++ ks.map (fun k => { role := k.1, index := k.2, debug := debug, upto := none }) }).stepKills gid

/-- Whether the end of some lanes completes a warp's arrival at a barrier (R354). The barrier is tested where they do: R353 names no
event for lanes that end and complete no arrival (log entry 110). -/
def State.arriveByEnding (s : State) (w w' : Warp) : State :=
  match s.group? w.group with
  | none => s
  | some g =>
    (List.range 16).foldl (fun s b =>
      if w'.arrivedAt b && !w.arrivedAt b && (s.kernelOf g.uid).barrierCfg b != 0 then
        (s.countArrival g.uid b).testBarrier g.uid b
      else s) s

/-- Some lanes of a warp end (R163, R165): their locks return, entries that wait for them may merge, and a barrier may count
the warp's arrival. -/
def State.endLanes (s : State) (uid : Nat) (m : Word) : State :=
  match s.warp? uid with
  | none => s
  | some w =>
    if w.liveLanes &&& ~~~m = 0 then s.endWarp uid
    else
      let frags := (w.frags.map (fun f => { f with lanes := f.lanes &&& ~~~m })).filter (fun f => f.lanes != 0)
      let w' : Warp := { w.releaseLocks m with frags := frags }
      let w' := w'.mergeAll.assignRecords.releaseBehind
      (s.setWarp w').arriveByEnding w w'

/-- KILL of the lanes of a parked fragment (R402). With the last live lane the warp ends, as `DEBUG_KILL` ends it. -/
def State.killLanes (s : State) (uid : Nat) (m : Word) : State :=
  match s.warp? uid with
  | none => s
  | some w => if w.liveLanes &&& ~~~m = 0 then s.kill w.group false [(w.role, w.index)] else s.endLanes uid m

end Sys2Proof.Machine
end

