-- ==== Sys2Proof/Machine/Control.lean ====
section
/-! DEFINITION. Class 0x2: transfers of control, convergence and the end of lanes (R158 to R166). -/

namespace Sys2Proof.Machine

/-! ### Branches (R42, R159, R160) -/

/-- The target of an offset in words from the branch word (R42). -/
def Issue.target {w : Nat} (I : Issue) (o : BitVec w) : Dword := I.frag.pc + 4 * o.signExtend 64

/-- The issuer's fragment changed. -/
def Issue.putFrag (I : Issue) (f : Frag) : State := I.put (I.warp.setFrag f)

/-- The lanes of `T` go to a word, the others to the next one (R159); a proper part forms a new fragment (R160). -/
def Issue.sendLanes (I : Issue) (T : Word) (pc : Dword) : Done :=
  if T = 0 then { st := I.st }
  else if T = I.active then { st := I.st, flow := .jump pc }
  else
    let new : Frag := { Frag.fresh I.warp.nextFrag I.warp.freeRecord T pc with
      ret := I.frag.ret, conv := I.frag.conv, stallTill := I.stall }
    let w := I.warp.setFrag { I.frag with lanes := I.active &&& ~~~T }
    { st := I.put { w with frags := w.frags ++ [new], nextFrag := w.nextFrag + 1 }, flow := .jump (I.frag.pc + 4) }

/-- All active lanes, or none. -/
def Issue.sendAll (I : Issue) (b : Bool) (pc : Dword) : Done := I.sendLanes (if b then I.active else 0) pc

def execBra (o : BitVec 22) (s : State) : Host.Outcome State Fault Refusal :=
  runInstr (.bra o) (fun I => .ok (I.sendAll true (I.target o))) s

def execBrac (c : BitVec 3) (e : BitVec 1) (o : BitVec 18) (s : State) : Host.Outcome State Fault Refusal :=
  runInstr (.brac c e o) (fun I => .ok (I.sendAll (I.view.getC c.toNat != (e == 1#1)) (I.target o))) s

/-- The mask of a `BRAK` with its sense. -/
def Issue.branchMask (I : Issue) (k : BitVec 3) (e : BitVec 1) : Word :=
  if e = 1#1 then ~~~(I.view.getK k.toNat) else I.view.getK k.toNat

def execBrak (k : BitVec 3) (e : BitVec 1) (o : BitVec 18) (s : State) : Host.Outcome State Fault Refusal :=
  runInstr (.brak k e o) (fun I => .ok (I.sendLanes (I.active &&& I.branchMask k e) (I.target o))) s

def execBraka (k : BitVec 3) (e : BitVec 1) (o : BitVec 18) (s : State) : Host.Outcome State Fault Refusal :=
  runInstr (.braka k e o) (fun I => .ok (I.sendAll (I.active &&& ~~~(I.branchMask k e) == 0) (I.target o))) s

/-! ### Calls (R161) -/

/-- `UD` at a word of class 0x2 whose stack is full. -/
def Issue.stackFull (i : Instr) : Stop := wholeTrap .ud ((Sys2Proof.encode i).getD 0).toNat 0

/-- A call to a word, with the next word on the return stack. -/
def Issue.callTo (I : Issue) (pc : Dword) : Done :=
  { st := I.putFrag { I.frag with ret := (I.frag.pc + 4) :: I.frag.ret }, flow := .jump pc }

def execCall (o : BitVec 22) (s : State) : Host.Outcome State Fault Refusal :=
  runInstr (.call o) (fun I =>
    if I.frag.ret.length = 16 then .error (Issue.stackFull (.call o)) else .ok (I.callTo (I.target o))) s

/-- A read of 8 bytes at a virtual address by the fragment as a whole. -/
def Issue.readDword (I : Issue) (va : Nat) : Except Stop (State × Nat) :=
  let b : Buf := { clmp := false, imm := false, ro := false, swz := 0, base := vaMask va, esz := 3, str := 0, ext := 1 }
  let ls := I.st.laneStates I.agent.master I.ctx b 8 false [(0, 0)]
  match I.st.settle I.agent ls { core := I.warp.core, scope := 0, promotes := false } false true with
  | .error e => .error e.whole
  | .ok s => .ok (s, laneNat (s.loadLanes I.agent 8 ls) 0)

/-- `CALLI`: the entry of the kernel's indirect table in force, as it stands at issue. An entry that is not a multiple
of 4 gives the address below it that is (log entry 70). -/
def execCalli (a : BitVec 6) (n : BitVec 16) (s : State) : Host.Outcome State Fault Refusal :=
  runInstr (.calli a n) (fun I =>
    if I.frag.ret.length = 16 then .error (Issue.stackFull (.calli a n))
    else
      let i := (I.view.getS a.toNat + n.setWidth 32).toNat
      let entry := I.st.kernel? I.grid.part I.grid.kid
      let count := (entry.map (fun k => k.kd.itabn)).getD I.grid.kd.itabn
      if count ≤ i then .error (wholeTrap .bounds i 0)
      else match I.readDword (((entry.map KernelEntry.itab).getD 0).toNat + 8 * i) with
        | .error e => .error e
        | .ok (s, x) => .ok ((I.at s).callTo (codeAddress x))) s

/-- The end of the active lanes of the issuing fragment (R163), as a release at the group's scope. -/
def Issue.endActive (I : Issue) : Except Stop Done :=
  match I.release I.st I.group.scope with
  | .error e => .error e
  | .ok s => .ok { st := s.endLanes I.ref.warp I.active, flow := .done }

def execRet (s : State) : Host.Outcome State Fault Refusal :=
  runInstr .ret (fun I =>
    match I.frag.ret with
    | [] => I.endActive
    | pc :: rest => .ok { st := I.putFrag { I.frag with ret := rest }, flow := .jump pc }) s

def execJmpi (a : BitVec 6) (n : BitVec 16) (s : State) : Host.Outcome State Fault Refusal :=
  runInstr (.jmpi a n) (fun I =>
    let t := I.view.getPair a.toNat + 4 * n.signExtend 64
    if t.extractLsb' 0 2 ≠ 0#2 then .error (.trap { code := .align, addr := t })
    else .ok { st := I.st, flow := .jump t }) s

/-! ### Convergence (R164, R165) -/

def execCvset (o : BitVec 22) (s : State) : Host.Outcome State Fault Refusal :=
  runInstr (.cvset o) (fun I =>
    if I.frag.conv.length = 8 then .error (Issue.stackFull (.cvset o))
    else
      let e : Conv := { p := I.target o, m := I.active, d := I.frag.ret.length }
      .ok { st := I.putFrag { I.frag with conv := e :: I.frag.conv } }) s

/-- Whether the top convergence entry matches a `CVWAIT` of the fragment. -/
def Frag.matchesTop (f : Frag) : Bool :=
  match f.conv with
  | [] => false
  | e :: _ => (e.p == f.pc || e.p == f.head) && e.d == f.ret.length

/-- `CVWAIT` (R165), which ends its coverage whether or not an entry matches (R54). -/
def execCvwait (s : State) : Host.Outcome State Fault Refusal :=
  runInstr .cvwait (fun I =>
    if I.frag.matchesTop then
      let held : Frag := { I.frag with wait := .held, record := none, chain := [], cover := [], yielded := I.yields,
                                       stallTill := I.stall, restTill := I.rest }
      .ok { st := I.put ((I.warp.setFrag held).mergeAll.assignRecords), flow := .done }
    else if I.warp.frags.any Frag.parked then .error (.wait I.st .behind)
    else .ok { st := I.st, flow := .jump I.frag.skip }) s

/-! ### The remaining forms (R162, R163) -/

def execExit (s : State) : Host.Outcome State Fault Refusal := runInstr .exit (fun I => I.endActive) s

def execNop (s : State) : Host.Outcome State Fault Refusal := runInstr .nop (fun I => .ok { st := I.st }) s

def execYield (s : State) : Host.Outcome State Fault Refusal := runInstr .yield (fun I => .ok { st := I.st, youngest := true }) s

def execLoop (a : BitVec 6) (o : BitVec 16) (s : State) : Host.Outcome State Fault Refusal :=
  runInstr (.loop a o) (fun I =>
    let x := I.view.getS a.toNat - 1
    let st := I.put (I.warp.setS a.toNat x)
    .ok (if x = 0 then { st := st } else { st := st, flow := .jump (I.target o) })) s

end Sys2Proof.Machine
end

