-- ==== Sys2Proof/Machine/VInt.lean ====
section
/-! DEFINITION. Class 0x3: integer arithmetic on lanes (R169 to R179). -/

namespace Sys2Proof.Machine

/-! ### Operands and results -/

/-- A vector register through the read crossbar of operand a, and of operand b (R60, R169). -/
def Issue.va {w : Nat} (I : Issue) (n : BitVec w) : Lanes :=
  routed I.h.p.pa I.h.p.na (I.view.getS I.h.p.s) (I.view.getV n.toNat)
def Issue.vr {w : Nat} (I : Issue) (n : BitVec w) : Lanes :=
  routed I.h.p.pb I.h.p.nb (I.view.getS I.h.p.s) (I.view.getV n.toNat)

/-- The immediate V in every lane (R56). -/
def Issue.spread (I : Issue) : Lanes := perLane (fun _ => I.h.imm.getD 0)

/-- Operand b: the register, or V in every lane (R171). -/
def Issue.vb (I : Issue) (b : BitVec 7) (i : BitVec 1) : Lanes := if i = 0#1 then I.vr b else I.spread

/-- A vector register as it is read, without the crossbar. -/
def Issue.vd {w : Nat} (I : Issue) (n : BitVec w) : Lanes := I.view.getV n.toNat

/-- Pairs of registers for the 64-bit forms (R179, R180). -/
def Issue.va2 {w : Nat} (I : Issue) (n : BitVec w) : Lanes2 := { lo := I.va n, hi := I.va (n + 1) }
def Issue.vr2 {w : Nat} (I : Issue) (n : BitVec w) : Lanes2 := { lo := I.vr n, hi := I.vr (n + 1) }
def Issue.vd2 {w : Nat} (I : Issue) (n : BitVec w) : Lanes2 := { lo := I.vd n, hi := I.vd (n + 1) }

/-- A vector result, written in the lanes of the governing mask (R169). -/
def Issue.doneV {w : Nat} (I : Issue) (d : BitVec w) (x : Lanes) : Done := { st := I.put (I.warp.writeV d.toNat I.mask x) }

/-- A pair of vector results. -/
def Issue.doneV2 {w : Nat} (I : Issue) (d : BitVec w) (x : Lanes2) : Done :=
  { st := I.put ((I.warp.writeV d.toNat I.mask x.lo).writeV (d.toNat + 1) I.mask x.hi) }

/-- A mask register as a compare leaves it (R175): the bits in G, zero in the other active lanes, the rest kept. -/
def Issue.maskBits (I : Issue) (k : BitVec 3) (bits : Word) : Word :=
  (I.warp.getK k.toNat &&& ~~~I.active) ||| (bits &&& I.mask)

/-- A result in a mask register. -/
def Issue.doneK (I : Issue) (k : BitVec 3) (x : Word) : Done := { st := I.put (I.warp.setK k.toNat x) }

/-- The body of a class 0x3 word of format V. -/
def laneBody (d a b : BitVec 7) (i : BitVec 1) (f : LaneFn) : Body :=
  fun I => .ok (I.doneV d (mapLanes (f I.h.m) (I.va a) (I.vb b i) (I.vd d)))

/-- The body of a unary class 0x3 word. -/
def laneUnary (d a : BitVec 7) (f : LaneFn) : Body :=
  fun I => .ok (I.doneV d (mapLanes (f I.h.m) (I.va a) zeroLanes (I.vd d)))

/-! ### The instructions of R173 -/

def execVadd (d a b : BitVec 7) (i : BitVec 1) (s : State) : Host.Outcome State Fault Refusal :=
  runInstr (.vadd d a b i) (laneBody d a b i vaddV) s

def execVavg (d a b : BitVec 7) (i : BitVec 1) (s : State) : Host.Outcome State Fault Refusal :=
  runInstr (.vavg d a b i) (laneBody d a b i vavgV) s

def execVsub (d a b : BitVec 7) (i : BitVec 1) (s : State) : Host.Outcome State Fault Refusal :=
  runInstr (.vsub d a b i) (laneBody d a b i vsubV) s

def execVmul (d a b : BitVec 7) (i : BitVec 1) (s : State) : Host.Outcome State Fault Refusal :=
  runInstr (.vmul d a b i) (laneBody d a b i vmulV) s

def execVmulhi (d a b : BitVec 7) (i : BitVec 1) (s : State) : Host.Outcome State Fault Refusal :=
  runInstr (.vmulhi d a b i) (laneBody d a b i vmulhiV) s

def execVmulhu (d a b : BitVec 7) (i : BitVec 1) (s : State) : Host.Outcome State Fault Refusal :=
  runInstr (.vmulhu d a b i) (laneBody d a b i vmulhuV) s

def execVmad (d a b : BitVec 7) (i : BitVec 1) (s : State) : Host.Outcome State Fault Refusal :=
  runInstr (.vmad d a b i) (laneBody d a b i vmadV) s

def execVand (d a b : BitVec 7) (i : BitVec 1) (s : State) : Host.Outcome State Fault Refusal :=
  runInstr (.vand d a b i) (laneBody d a b i vandV) s

def execVor (d a b : BitVec 7) (i : BitVec 1) (s : State) : Host.Outcome State Fault Refusal :=
  runInstr (.vor d a b i) (laneBody d a b i vorV) s

def execVxor (d a b : BitVec 7) (i : BitVec 1) (s : State) : Host.Outcome State Fault Refusal :=
  runInstr (.vxor d a b i) (laneBody d a b i vxorV) s

def execVandn (d a b : BitVec 7) (i : BitVec 1) (s : State) : Host.Outcome State Fault Refusal :=
  runInstr (.vandn d a b i) (laneBody d a b i vandnV) s

def execVshl (d a b : BitVec 7) (i : BitVec 1) (s : State) : Host.Outcome State Fault Refusal :=
  runInstr (.vshl d a b i) (laneBody d a b i vshlV) s

def execVshr (d a b : BitVec 7) (i : BitVec 1) (s : State) : Host.Outcome State Fault Refusal :=
  runInstr (.vshr d a b i) (laneBody d a b i vshrV) s

def execVsra (d a b : BitVec 7) (i : BitVec 1) (s : State) : Host.Outcome State Fault Refusal :=
  runInstr (.vsra d a b i) (laneBody d a b i vsraV) s

def execVmin (d a b : BitVec 7) (i : BitVec 1) (s : State) : Host.Outcome State Fault Refusal :=
  runInstr (.vmin d a b i) (laneBody d a b i vminV) s

def execVmax (d a b : BitVec 7) (i : BitVec 1) (s : State) : Host.Outcome State Fault Refusal :=
  runInstr (.vmax d a b i) (laneBody d a b i vmaxV) s

def execVminu (d a b : BitVec 7) (i : BitVec 1) (s : State) : Host.Outcome State Fault Refusal :=
  runInstr (.vminu d a b i) (laneBody d a b i vminuV) s

def execVmaxu (d a b : BitVec 7) (i : BitVec 1) (s : State) : Host.Outcome State Fault Refusal :=
  runInstr (.vmaxu d a b i) (laneBody d a b i vmaxuV) s

def execVabsd (d a b : BitVec 7) (i : BitVec 1) (s : State) : Host.Outcome State Fault Refusal :=
  runInstr (.vabsd d a b i) (laneBody d a b i vabsdV) s

def execVsad (d a b : BitVec 7) (i : BitVec 1) (s : State) : Host.Outcome State Fault Refusal :=
  runInstr (.vsad d a b i) (laneBody d a b i vsadV) s

/-- `VCMP` (R175). -/
def execVcmp (k : BitVec 3) (c : BitVec 4) (a b : BitVec 7) (i : BitVec 1) (s : State) : Host.Outcome State Fault Refusal :=
  runInstr (.vcmp k c a b i) (fun I =>
    let x := I.va a
    let y := I.vb b i
    .ok (I.doneK k (I.maskBits k (maskOf (fun L => intCond c.toNat (lane x L) (lane y L)))))) s

/-- `VSEL` (R176): all 32 lanes, by the governing mask. -/
def execVsel (d a b : BitVec 7) (i : BitVec 1) (s : State) : Host.Outcome State Fault Refusal :=
  runInstr (.vsel d a b i) (fun I => .ok { st := I.put (I.warp.putV d.toNat (mergeLanes I.mask (I.va a) (I.vb b i))) }) s

def execVmov (d a : BitVec 7) (s : State) : Host.Outcome State Fault Refusal :=
  runInstr (.vmov d a) (laneUnary d a vmovV) s

/-- `VMOVI` (R177). -/
def execVmovi (d : BitVec 7) (i : BitVec 15) (s : State) : Host.Outcome State Fault Refusal :=
  runInstr (.vmovi d i) (fun I => .ok (I.doneV d (perLane (fun _ => I.h.imm.getD (i.signExtend 32))))) s

/-- `VMOVS` (R177): a scalar in every lane. -/
def execVmovs (d : BitVec 7) (n : BitVec 6) (s : State) : Host.Outcome State Fault Refusal :=
  runInstr (.vmovs d n) (fun I => .ok (I.doneV d (perLane (fun _ => I.view.getS n.toNat)))) s

def execVclz (d a : BitVec 7) (s : State) : Host.Outcome State Fault Refusal :=
  runInstr (.vclz d a) (laneUnary d a vclzV) s

def execVpopc (d a : BitVec 7) (s : State) : Host.Outcome State Fault Refusal :=
  runInstr (.vpopc d a) (laneUnary d a vpopcV) s

def execVbfe (d a b : BitVec 7) (i : BitVec 1) (s : State) : Host.Outcome State Fault Refusal :=
  runInstr (.vbfe d a b i) (laneBody d a b i vbfeV) s

def execVbfi (d a b : BitVec 7) (i : BitVec 1) (s : State) : Host.Outcome State Fault Refusal :=
  runInstr (.vbfi d a b i) (laneBody d a b i vbfiV) s

/-- Operand b of a 64-bit form: the pair, or V sign-extended in every lane (R179). -/
def Issue.vb64 (I : Issue) (b : BitVec 7) (i : BitVec 1) : Lanes2 :=
  if i = 0#1 then I.vr2 b
  else { lo := I.spread, hi := perLane (fun _ => highHalf ((I.h.imm.getD 0).signExtend 64)) }

def execVadd64 (d a b : BitVec 7) (i : BitVec 1) (s : State) : Host.Outcome State Fault Refusal :=
  runInstr (.vadd64 d a b i) (fun I => .ok (I.doneV2 d (mapLanes2 vadd64V (I.va2 a) (I.vb64 b i)))) s

def execVsub64 (d a b : BitVec 7) (i : BitVec 1) (s : State) : Host.Outcome State Fault Refusal :=
  runInstr (.vsub64 d a b i) (fun I => .ok (I.doneV2 d (mapLanes2 vsub64V (I.va2 a) (I.vb64 b i)))) s

/-- `VIDX` (R177): the lane number plus V. -/
def execVidx (d : BitVec 7) (i : BitVec 1) (s : State) : Host.Outcome State Fault Refusal :=
  runInstr (.vidx d i) (fun I =>
    .ok (I.doneV d (perLane (fun L => BitVec.ofNat 32 L + (if i = 0#1 then 0 else I.h.imm.getD 0))))) s

end Sys2Proof.Machine
end

