-- ==== Sys2Proof/Machine/VFloat.lean ====
section
/-! DEFINITION. Class 0x4: floating point on lanes (R180 to R189). -/

namespace Sys2Proof.Machine

/-! ### Operands and results -/

/-- Operand b of a precision: the register or pair, or V as R56 and R180 place it. -/
def Issue.fb (I : Issue) (prec : Nat) (b : BitVec 7) (i : BitVec 1) : Lanes2 :=
  if i = 0#1 then I.vr2 b
  else if prec = 1 then { lo := zeroLanes, hi := I.spread }
  else { lo := I.spread, hi := zeroLanes }

/-- The number of an instruction's draws: `%srctr` at its issue (R88, R190). -/
def Issue.srctr (I : Issue) : Word := (I.frag.latch.map Latch.srctr).getD I.warp.srctr

/-- The environment of a class 0x4 instruction: its precision, modifiers, the context's flush bit and the draws of R87. -/
def Issue.fpEnv (I : Issue) (prec : Nat) : FpEnv :=
  { prec := prec, h := I.h.m, fz := I.ctx.cfg.getLsbD 0,
    draw := fun L e => srDraw I.ctx.srseed (BitVec.ofNat 64 I.group.linear) (srCoord I.srctr I.warp.index L e) }

/-- After a floating instruction: the flags raised, and one step of `%srctr` when it rounds by SR and did not take its number when it
issued (R86, R88). -/
def Issue.flagged (I : Issue) (w : Warp) (fl : FpFlags) : Warp :=
  let w := w.orFlags fl
  if I.h.m.rnd = 5 ∧ I.latched = false then { w with srctr := w.srctr + 1 } else w

/-- The body of a class 0x4 word with a vector result (R181). -/
def floatBody (prec : Nat) (d a b : BitVec 7) (i : BitVec 1) (f : ElemFn) : Body := fun I =>
  let E := I.fpEnv prec
  let va := I.va2 a
  let vb := I.fb prec b i
  let vd := I.vd2 d
  let x := E.map f va vb vd
  let w := I.warp.writeV d.toNat I.mask x.lo
  let w := if prec = 1 then w.writeV (d.toNat + 1) I.mask x.hi else w
  .ok { st := I.put (I.flagged w (E.flags f va vb vd I.mask)) }

/-- The body of a unary class 0x4 word. -/
def floatUnary (prec : Nat) (d a : BitVec 7) (f : ElemFn) : Body := floatBody prec d a 0 1#1 f

/-! ### The instructions of R182 -/

def execVfadd (p : BitVec 2) (d a b : BitVec 7) (i : BitVec 1) (s : State) : Host.Outcome State Fault Refusal :=
  runInstr (.vfadd p d a b i) (floatBody p.toNat d a b i vfaddV) s

def execVfsub (p : BitVec 2) (d a b : BitVec 7) (i : BitVec 1) (s : State) : Host.Outcome State Fault Refusal :=
  runInstr (.vfsub p d a b i) (floatBody p.toNat d a b i vfsubV) s

def execVfmul (p : BitVec 2) (d a b : BitVec 7) (i : BitVec 1) (s : State) : Host.Outcome State Fault Refusal :=
  runInstr (.vfmul p d a b i) (floatBody p.toNat d a b i vfmulV) s

def execVfma (p : BitVec 2) (d a b : BitVec 7) (i : BitVec 1) (s : State) : Host.Outcome State Fault Refusal :=
  runInstr (.vfma p d a b i) (floatBody p.toNat d a b i vfmaV) s

def execVfmin (p : BitVec 2) (d a b : BitVec 7) (i : BitVec 1) (s : State) : Host.Outcome State Fault Refusal :=
  runInstr (.vfmin p d a b i) (floatBody p.toNat d a b i vfminV) s

def execVfmax (p : BitVec 2) (d a b : BitVec 7) (i : BitVec 1) (s : State) : Host.Outcome State Fault Refusal :=
  runInstr (.vfmax p d a b i) (floatBody p.toNat d a b i vfmaxV) s

/-- `VFCMP` (R185): a pair sets the bit when the relation holds for both elements. -/
def execVfcmp (p : BitVec 2) (k : BitVec 3) (c : BitVec 4) (a b : BitVec 7) (i : BitVec 1) (s : State) :
    Host.Outcome State Fault Refusal :=
  runInstr (.vfcmp p k c a b i) (fun I =>
    let E := I.fpEnv p.toNat
    let va := I.va2 a
    let vb := I.fb p.toNat b i
    let cmp := fun L e => fpCompare c.toNat (precFmt p.toNat) E.fz (E.elem E.h.absa E.h.nega va L e) (E.elem E.h.absb E.h.negb vb L e)
    let es := List.range (precElems p.toNat)
    let fl := (lanesOf I.mask).foldl (fun (fl : FpFlags) L => es.foldl (fun fl e => fl ||| (cmp L e).2) fl) 0
    .ok { st := I.put ((I.warp.setK k.toNat (I.maskBits k (maskOf (fun L => es.all (fun e => (cmp L e).1))))).orFlags fl) }) s

def execVfrnd (p : BitVec 2) (d a : BitVec 7) (s : State) : Host.Outcome State Fault Refusal :=
  runInstr (.vfrnd p d a) (floatUnary p.toNat d a vfrndV) s

def execVfcls (p : BitVec 2) (d a : BitVec 7) (s : State) : Host.Outcome State Fault Refusal :=
  runInstr (.vfcls p d a) (floatUnary p.toNat d a vfclsV) s

def execVfrcp (d a : BitVec 7) (s : State) : Host.Outcome State Fault Refusal :=
  runInstr (.vfrcp d a) (floatUnary 0 d a vfrcpV) s

def execVfrsq (d a : BitVec 7) (s : State) : Host.Outcome State Fault Refusal :=
  runInstr (.vfrsq d a) (floatUnary 0 d a vfrsqV) s

def execVfexp2 (d a : BitVec 7) (s : State) : Host.Outcome State Fault Refusal :=
  runInstr (.vfexp2 d a) (floatUnary 0 d a vfexp2V) s

def execVflog2 (d a : BitVec 7) (s : State) : Host.Outcome State Fault Refusal :=
  runInstr (.vflog2 d a) (floatUnary 0 d a vflog2V) s

def execVfsqrt (p : BitVec 1) (d a : BitVec 7) (s : State) : Host.Outcome State Fault Refusal :=
  runInstr (.vfsqrt p d a) (floatUnary p.toNat d a vfsqrtV) s

def execVfdiv (p : BitVec 1) (d a b : BitVec 7) (i : BitVec 1) (s : State) : Host.Outcome State Fault Refusal :=
  runInstr (.vfdiv p d a b i) (floatBody p.toNat d a b i vfdivV) s

/-- `VFTRIG`: sine, cosine or hyperbolic tangent by its vb field (R182, R189). -/
def execVftrig (d a t : BitVec 7) (s : State) : Host.Outcome State Fault Refusal :=
  runInstr (.vftrig d a t) (floatUnary 0 d a (vftrigV t.toNat)) s

end Sys2Proof.Machine
end

