-- ==== Sys2Proof/Machine/Formats.lean ====
section
/-! DEFINITION. Class 0xC: format entries and conversions (R79 to R81, R92 to R101). -/

namespace Sys2Proof.Machine

/-! ### The entries -/

/-- A new update of a format entry (R79). -/
def Ctx.update (c : Ctx) (stamp n : Nat) (x : Word) : Ctx :=
  { c with updating := c.updating ++ [{ stamp := stamp, n := n, word := x, cores := [] }] }

/-- `FMTSET` (R95): the entry is Updating, and the issuer's warp waits, until `FORMAT_UPDATE_COMPLETE`. While an earlier
`FMTSET` of the entry is under way, this one waits its turn (R81). -/
def execFmtset (f : BitVec 4) (a : BitVec 6) (s : State) : Host.Outcome State Fault Refusal :=
  runInstr (.fmtset f a) (fun I =>
    let n := f.toNat
    let x := I.view.getS a.toNat
    if n < 6 then .error (illfmt 0 n)
    else if fmtLegal x = false then .error (illfmt (fmtStatus x) n)
    else match I.ctx.updating.find? (fun u => u.n == n) with
      | some u => .error (.wait I.st (.format u.stamp false))
      | none =>
        let s := { I.st with fresh := I.st.fresh + 1 }
        match s.ctxOf I.group with
        | none => .ok { st := s }
        | some c => .error (.wait (s.setCtx (c.update I.st.fresh n x)) (.format I.st.fresh true))) s

def execFmtget (f : BitVec 4) (a : BitVec 6) (s : State) : Host.Outcome State Fault Refusal :=
  runInstr (.fmtget f a) (fun I => .ok { st := I.put (I.warp.setS a.toNat (I.ctx.entry f.toNat)) }) s

def execFmtchk (f : BitVec 4) (a : BitVec 6) (s : State) : Host.Outcome State Fault Refusal :=
  runInstr (.fmtchk f a) (fun I => .ok { st := I.put (I.warp.setS a.toNat (fmtStatus (I.ctx.entry f.toNat))) }) s

/-- The wake of an `FMTSET` when an update completes: it completes, or, when it waited its turn, begins. -/
def Frag.afterUpdate (stamp : Nat) (f : Frag) : Frag :=
  match f.wait with
  | .format m own => if m = stamp then (if own then f.complete else f.retry) else f
  | _ => f

/-- A core's replica takes the word of the oldest update of an entry (R79). -/
def Ctx.spread (c : Ctx) (core n : Nat) : Ctx :=
  match c.updating.find? (fun u => u.n == n) with
  | none => c
  | some u =>
    { c with updating := c.updating.map (fun v => if v.stamp = u.stamp ∧ ¬ core ∈ v.cores then { v with cores := core :: v.cores } else v) }

def State.spreadFormat (s : State) (part slot core n : Nat) : State :=
  match s.ctx? part slot with
  | none => s
  | some c => s.setCtx (c.spread core n)

/-- A grid's words are installed: its first group becomes Pending (R429). -/
def State.installed (s : State) (stamp : Nat) : State :=
  let waiting := s.grids.filter (fun g => g.installing.contains stamp)
  let s := { s with grids := s.grids.map (fun (g : Grid) => { g with installing := g.installing.filter (fun m => m != stamp) }) }
  waiting.foldl (fun s g => if g.installing == [stamp] && g.state == .admitted then nextGroup 1 s g.uid else s) s

/-- The oldest update of an entry completes (R79): every replica holds the word, and who waits for it goes on. -/
def State.completeUpdate (s : State) (c : Ctx) (n : Nat) : State :=
  match c.updating.find? (fun u => u.n == n) with
  | none => s
  | some u =>
    let s := s.setCtx { c with fmt := c.fmt.setIfInBounds (n - 6) u.word, updating := c.updating.filter (fun v => v.stamp != u.stamp) }
    let s := { s with warps := s.warps.map (fun (w : Warp) =>
        match s.group? w.group with
        | some g => if g.part = c.part ∧ g.ctx = c.slot then { w with frags := w.frags.map (Frag.afterUpdate u.stamp) } else w
        | none => w) }
    s.installed u.stamp

/-- FORMAT_UPDATE_COMPLETE (R79, R81). -/
def execFormatUpdateComplete (part slot n : Nat) (s : State) : Host.Outcome State Fault Refusal :=
  match s.ctx? part slot with
  | none => .next s
  | some c => .next (s.completeUpdate c n)

/-! ### Conversions -/

/-- What a conversion gives in each lane (R98). -/
def Issue.converted (I : Issue) (d a : BitVec 7) (g f : BitVec 4) (L : Nat) : (Word × Word) × FpFlags :=
  cvtLane (Fmt.ofWord (I.ctx.entry f.toNat)) (Fmt.ofWord (I.ctx.entry g.toNat)) I.h.m.rnd I.h.m.sat (I.ctx.cfg.getLsbD 0)
    (fun L => (I.fpEnv 0).draw L 0) (I.vd a) (I.view.getV (a.toNat + 1)) (I.vd d) L

/-- The lanes written, and the flags of the lanes of a mask. -/
def Issue.doneCvt (I : Issue) (d : BitVec 7) (g : BitVec 4) (x : Nat → Word × Word) (fl : FpFlags) : State × Warp :=
  let w := I.warp.writeV d.toNat I.mask (perLane (fun L => (x L).1))
  let w := if (Fmt.ofWord (I.ctx.entry g.toNat)).width = 64 then w.writeV (d.toNat + 1) I.mask (perLane (fun L => (x L).2)) else w
  (I.st, I.flagged w fl)

/-- The flags of the lanes of a list. -/
def flagsOf (f : Nat → FpFlags) (ls : List Nat) : FpFlags := ls.foldl (fun fl L => fl ||| f L) 0

/-- `VCVT` (R98). -/
def execVcvt (d a : BitVec 7) (g f : BitVec 4) (s : State) : Host.Outcome State Fault Refusal :=
  runInstr (.vcvt d a g f) (fun I =>
    let x := I.converted d a g f
    let r := I.doneCvt d g (fun L => (x L).1) (flagsOf (fun L => (x L).2) I.lanes)
    .ok { st := r.1.setWarp r.2 }) s

/-- `VCVTO` (R99): lanes beyond the threshold in `s62` become code 0 and are set in `k7`. The flush bit
leaves a subnormal threshold as it is (log entry 80). -/
def execVcvto (d a : BitVec 7) (g f : BitVec 4) (s : State) : Host.Outcome State Fault Refusal :=
  runInstr (.vcvto d a g f) (fun I =>
    let src := Fmt.ofWord (I.ctx.entry f.toNat)
    let dst := Fmt.ofWord (I.ctx.entry g.toNat)
    let t := binary32.decode (I.view.getS 62).toNat
    let out := fun L =>
      match src.laneValue (I.ctx.cfg.getLsbD 0) (lane (I.vd a) L) (lane (I.view.getV (a.toNat + 1)) L) with
      | .nan .. => false
      | .inf _ => ltValue t (.inf false)
      | .fin _ m => ltValue t (.fin false m)
    let x := I.converted d a g f
    let r := I.doneCvt d g (fun L => if out L then dst.intoLane (lane (I.vd d) L) 0 else (x L).1)
      (flagsOf (fun L => if out L then 0 else (x L).2) I.lanes)
    .ok { st := r.1.setWarp (r.2.setK 7 (maskOf (fun L => I.mask.getLsbD L && out L))) }) s

/-- The scale code of each lane for blocks of lanes (R100). -/
def Issue.scaleOf (I : Issue) (src dst : Fmt) (blocks : List (List (Lanes × Lanes × Nat))) : List (Nat × FpFlags) :=
  blocks.map (fun b =>
    blockScale dst (((b.filter (fun e => I.mask.getLsbD e.2.2)).map (fun e =>
      src.laneValue (I.ctx.cfg.getLsbD 0) (lane e.1 e.2.2) (lane e.2.1 e.2.2)))))

/-- `VCVTS` (R100). -/
def execVcvts (d a : BitVec 7) (g f : BitVec 4) (s : State) : Host.Outcome State Fault Refusal :=
  runInstr (.vcvts d a g f) (fun I =>
    let src := Fmt.ofWord (I.ctx.entry f.toNat)
    let dst := Fmt.ofWord (I.ctx.entry g.toNat)
    let n := if src.width = 64 then 2 else 1
    let lanes := fun (r lo count : Nat) => (List.range count).map (fun j =>
      (I.view.getV (a.toNat + r), I.view.getV (a.toNat + r + 1), lo + j))
    let blocks := if dst.block = 16 then [lanes 0 0 16, lanes 0 16 16]
      else if dst.block = 32 then [lanes 0 0 32] else [lanes 0 0 32 ++ lanes n 0 32]
    let zs := I.scaleOf src dst blocks
    let fl := zs.foldl (fun (fl : FpFlags) z => fl ||| z.2) 0
    let code := fun L => (zs.getD (L / 16 % zs.length) (0, 0)).1
    let v := perLane (fun L => BitVec.ofNat 32 (code L * 2 ^ 24))
    let w := (I.warp.writeV d.toNat I.mask v).orFlags fl
    let w := if dst.block = 64 then w.writeV (d.toNat + 1) I.mask v else w
    .ok { st := I.put w }) s

end Sys2Proof.Machine
end

