-- ==== Sys2Proof/Machine/Budget.lean ====
section
/-! DEFINITION. Class 0xB: register budgets and recipes (R124 to R127, R136 to R141). -/

namespace Sys2Proof.Machine

/-! ### Budgets -/

/-- `RGCLM` (R125): a claim that is granted at once or waits. -/
def execRgclm (d : BitVec 6) (n : BitVec 5) (s : State) : Host.Outcome State Fault Refusal :=
  runInstr (.rgclm d n) (fun I =>
    let want := min n.toNat (16 - I.warp.budget)
    if want = 0 then .ok { st := I.put (I.warp.setS d.toNat (BitVec.ofNat 32 I.warp.budget)) }
    else match I.st.tryClaim I.warp want with
      | (s, true) =>
        let b := I.warp.budget + want
        .ok { st := s.setWarp { I.warp.setS d.toNat (BitVec.ofNat 32 b) with budget := b } }
      | (s, false) => .error (.wait { s with fresh := s.fresh + 1 } (.claim want (some d.toNat) s.fresh none []))) s

/-- Drops tagged registers, oldest first, while the warp holds more than `room` registers (R126). -/
def dropDown : Nat → Warp → Nat → Warp
  | 0, w, _ => w
  | fuel + 1, w, room =>
    if w.heldWith [] ≤ room then w
    else match w.oldestLive [] with
      | some n => dropDown fuel (w.dropSlot n) room
      | none => w

/-- `RGGIV` (R126). -/
def execRggiv (d : BitVec 6) (n : BitVec 5) (s : State) : Host.Outcome State Fault Refusal :=
  runInstr (.rggiv d n) (fun I =>
    let target := max 1 (I.warp.budget - n.toNat)
    let w := dropDown 16 I.warp (8 * target)
    let b := max target ((w.heldWith [] + 7) / 8)
    .ok { st := (I.put { w.setS d.toNat (BitVec.ofNat 32 b) with budget := b }).grantOnCore I.warp.core }) s

/-- Tagged registers of a warp that hold a value; a 64-bit tag is two registers. -/
def Warp.taggedHeld (w : Warp) : Nat := (w.slots.toList.filter (fun x => x.state == .live)).foldl (fun a x => a + x.names.length) 0

/-- `RGQRY` (R127). -/
def execRgqry (d : BitVec 6) (s : State) : Host.Outcome State Fault Refusal :=
  runInstr (.rgqry d) (fun I =>
    let pool := min 255 (I.st.unreserved I.group I.warp.pos)
    .ok { st := I.put (I.warp.setS d.toNat (BitVec.ofNat 32
      (pool * 2 ^ 24 + I.warp.taggedHeld * 2 ^ 16 + I.warp.held * 2 ^ 8 + I.warp.budget))) }) s

/-! ### Recipes -/

/-- A fault for the whole fragment, with what took effect before it kept. -/
def Stop.after (s : State) : Stop → Stop
  | .trap t => .trapAt s { t with lanes := none }
  | .wait s (.futures js) => .wait s (.futures (js.map (fun j => { j with lanes := none })))
  | e => e

/-- `RCPILL` with its detail and slot (R400). -/
def rcpill (s : State) (detail n : Nat) : Stop :=
  .trapAt s { code := .rcpill, detail := BitVec.ofNat 32 detail, aux := BitVec.ofNat 32 n }

/-- The words from a program counter upward. -/
def Issue.fetchWords (I : Issue) : Dword → Nat → Except Stop (List Word)
  | _, 0 => .ok []
  | pc, n + 1 =>
    match Issue.fetch { I with frag := { I.frag with pc := pc } } with
    | .error e => .error e
    | .ok w =>
      match I.fetchWords (pc + 4) n with
      | .error e => .error e
      | .ok ws => .ok (w :: ws)

/-- The first word of a body that is `UD`, else the first that breaks R133 with its position, the last word being one that
writes no vector register included. -/
def bodyFault (body : List Word) : Option (Word ⊕ Nat) :=
  match body.find? (fun w => (wordUD w).isNone) with
  | some w => some (.inl w)
  | none =>
    let ops := body.map (fun w => (wordUD w).bind bodyOp)
    match ops.findIdx? Option.isNone with
    | some k => some (.inr k)
    | none => if (ops.getLast?.bind id).elim true BodyOp.writesVector then none else some (.inr (body.length - 1))

/-- A bound slot sealed, before an instruction that needs it unbound. -/
def Issue.sealed (I : Issue) (n : Nat) : Except Stop State :=
  if (I.warp.slot? n).bound then sealSlot I.agent I.ref.warp [] I.st n else .ok I.st

/-- `RDEF` (R137). It, and `SKIP` after a fault of it, goes on after the last recorded word. -/
def execRdef (c : BitVec 2) (x : BitVec 4) (s : State) : Host.Outcome State Fault Refusal :=
  runInstr (.rdef c x) (fun I =>
    let count := c.toNat + 1
    match I.sealed x.toNat with
    | .error e => .error e
    | .ok s =>
      let I := I.at s
      match I.fetchWords (I.frag.pc + 4) count with
      | .error e => .error (e.after s)
      | .ok body =>
        match bodyFault body with
        | some (.inl w) => .error (.trapAt s { code := .ud, detail := w })
        | some (.inr k) => .error (rcpill s k x.toNat)
        | none =>
          let s := (List.range count).foldl (fun s k => I.fetchTraffic s (I.frag.pc + BitVec.ofNat 64 (4 * (k + 1)))) I.st
          .ok { st := s.setWarp (I.warp.setSlot x.toNat { Slot.none with state := .defined, body := body }), flow := .jump I.frag.skip }) s

/-- The format faults of the `VCVT` words of a body (R101, R138). -/
def bodyFormats (c : Ctx) : List BodyOp → Option Stop
  | [] => none
  | .vcvt d a g f :: os =>
    match (illegalEntry c f g).or (oddElement c (BitVec.ofNat 7 d) (BitVec.ofNat 7 a) (BitVec.ofNat 4 g) (BitVec.ofNat 4 f)) with
    | some e => some e
    | none => bodyFormats c os
  | _ :: os => bodyFormats c os

/-- What `RTAG` binds: the words with their captures, the inputs, and whether the result takes a pair. -/
structure Tagging where
  ops    : List (BodyOp × BitVec 128)
  inputs : List Nat
  wide   : Bool

/-- The checks of `RTAG` in their order (R138). -/
def Issue.tagChecks (I : Issue) (d : BitVec 7) (n : Nat) : Except Stop Tagging :=
  let ops := I.tagOps n
  let inputs := bodyInputs [] ops
  let wide := wideResult ops
  let names := if wide then [d.toNat, d.toNat + 1] else [d.toNat]
  let noImm := fun (o : BodyOp × BitVec 128) => match o.1 with
    | .vld .. => !(Buf.of o.2).imm
    | _ => false
  if names.any (fun m => inputs.contains m) then .error (rcpill I.st 5 n)
  else if wide && d.getLsbD 0 then .error (rcpill I.st 6 n)
  else if ops.any noImm then .error (rcpill I.st 7 n)
  else if 2 < I.warp.tagDepth inputs then .error (rcpill I.st 8 n)
  else match bodyFormats I.ctx (ops.map Prod.fst) with
    | some e => .error (e.after I.st)
    | none => .ok { ops := ops, inputs := inputs, wide := wide }

/-- The slots bound to some of these names. -/
def Warp.taggedAmong (w : Warp) (names : List Nat) : List Nat :=
  w.slotsIn (fun y => y.bound && y.names.any (fun v => names.contains v))

/-- The tag is made: effects on earlier tags of `vd`, room for the result, and the slot (R138, R146, R147). An earlier result that is
still to be in an input is a write to a pinned name when it comes, so the tag is sealed then; it is so at once (R61, R146; log entry
102). -/
def Issue.tag (I : Issue) (d : BitVec 7) (n : Nat) (T : Tagging) (x : Lanes × Lanes) (fl : FpFlags) : Except Stop Done :=
  let names := if T.wide then [d.toNat, d.toNat + 1] else [d.toNat]
  let inputs := I.warp.taggedAmong T.inputs
  let early := (I.frag.latch.map Latch.early).getD (I.earlyInput (.rtag d (BitVec.ofNat 4 n)))
  match beforeWrites I.agent I.ref.warp inputs inputs names I.st with
  | .error e => .error e
  | .ok s =>
    let w := (I.at s).warp
    let seq := (s.tagSeq.getD w.core 0) + 1
    let slot : Slot :=
      { state := .live, body := (w.slot? n).body, caps := T.ops.map Prod.snd, vd := d.toNat, w64 := T.wide,
        depth := w.tagDepth T.inputs, tmask := I.active, tagSeq := seq.toNat, fz := I.ctx.cfg.getLsbD 0, inputs := T.inputs }
    let w := ((w.putTagged d.toNat T.wide x).setSlot n (if early then slot.defined else slot)).orFlags fl
    .ok { st := { s.setWarp w with tagSeq := s.tagSeq.setIfInBounds w.core seq } }

/-- `RTAG` (R138): the seal, the checks, the replay of the dropped inputs, the evaluation and the tag. -/
def execRtag (d : BitVec 7) (x : BitVec 4) (s : State) : Host.Outcome State Fault Refusal :=
  runInstr (.rtag d x) (fun I =>
    let n := x.toNat
    if (I.warp.slot? n).state = .empty then .error (rcpill I.st 4 n)
    else match I.sealed n with
      | .error e => .error e
      | .ok s =>
        match (I.at s).tagChecks d n with
        | .error e => .error e
        | .ok T =>
          match replayReads I.agent I.ref.warp ((I.at s).warp.taggedAmong T.inputs) s T.inputs with
          | .error e => .error e
          | .ok s =>
            let env : BodyEnv := { agent := I.agent, ctx := I.ctx, warp := (I.at s).view, mask := I.active,
                                   fz := I.ctx.cfg.getLsbD 0 }
            match evalWords env s { s := [], v := [] } 0 T.ops with
            | .error e => .error (e.after s)
            | .ok (s, t, fl) => (I.at s).tag d n T (resultOf t I.active T.ops) fl) s

/-- `RSEAL` (R139). -/
def execRseal (d : BitVec 7) (s : State) : Host.Outcome State Fault Refusal :=
  runInstr (.rseal d) (fun I =>
    match I.warp.tagOf d.toNat with
    | none => .ok { st := I.st }
    | some n =>
      match sealSlot I.agent I.ref.warp [] I.st n with
      | .error e => .error e
      | .ok s => .ok { st := s }) s

/-- `RDROP` (R140). -/
def execRdrop (d : BitVec 7) (s : State) : Host.Outcome State Fault Refusal :=
  runInstr (.rdrop d) (fun I =>
    match I.warp.tagOf d.toNat with
    | none => .ok { st := I.st }
    | some n => .ok { st := if (I.warp.slot? n).state = .live then I.put (I.warp.dropSlot n) else I.st }) s

/-- `RFREE` (R141). -/
def execRfree (x : BitVec 4) (s : State) : Host.Outcome State Fault Refusal :=
  runInstr (.rfree x) (fun I =>
    match I.sealed x.toNat with
    | .error e => .error e
    | .ok s => .ok { st := s.setWarp ((I.at s).warp.setSlot x.toNat Slot.none) }) s

end Sys2Proof.Machine
end

