-- ==== Sys2Proof/Machine/Answers.lean ====
section
/-! DEFINITION. What reaches a context from outside its warps: additions to signals, answers to fault records, the pager's
doorbell, and the context state registers (R245, R395, R402, R403, R492, R494). -/

namespace Sys2Proof.Machine

/-! ### Additions to signals (R494) -/

/-- What an addition was for is done: a packet of a queue, or a grid, is complete. -/
def State.finishAdd (s : State) (part slot : Nat) (what : AddFor) : State :=
  match what with
  | .fqsig => s
  | .packet q idx =>
    match s.ctx? part slot with
    | none => s
    | some c => s.setCtx { c with queues := c.queues.map (fun x => if x.n = q then { x with open_ := x.open_.filter (fun i => i != idx) } else x) }
  | .grid uid =>
    match s.grid? uid with
    | none => s
    | some g =>
      let s := { s with grids := s.grids.filter (fun x => x.uid != uid) }
      match s.ctx? part slot with
      | none => s
      | some c =>
        s.setCtx { c with queues := c.queues.map (fun x =>
          if x.n = g.queue then { x with open_ := x.open_.filter (fun i => i != g.packet) } else x) }

/-- The event SIGLOST (R400): an addition is not made. -/
def State.signalLost (s : State) (part slot : Nat) (what : AddFor) (addr : Nat) : State :=
  let grid := match what with
    | .grid uid => s.grid? uid
    | _ => none
  let r := eventRecord 4 addr ((grid.map Grid.kid).getD 0) ((grid.map (fun g => g.gridn.toNat)).getD 0) 0 0 0
  s.postRecord part slot { r with own := decide (what = .fqsig) } (Live.plain 0 0)

/-- An addition to a signal of a context; an address of 0 adds nothing. -/
def State.performAdd (s : State) (part slot : Nat) (what : AddFor) (addr n : Nat) : State :=
  match s.ctx? part slot with
  | none => s
  | some c =>
    let hold := fun (s : State) (f : Option Nat) =>
      match s.ctx? part slot with
      | none => s
      | some c => s.setCtx { c with adds := c.adds ++ [{ future := f, addr := BitVec.ofNat 64 addr, n := n, what := what }] }
    if addr = 0 then s.finishAdd part slot what
    else match s.addSignal c addr n with
      | .done s => s.finishAdd part slot what
      | .waits s f => hold s (some f)
      | .blocked => hold s none
      | .lost => (s.signalLost part slot what addr).finishAdd part slot what

/-- The additions of a context that `p` chooses are taken from its list and made, or lost when `lost` is set. -/
def State.redoAdds (s : State) (part slot : Nat) (p : PendingAdd → Bool) (lost : Bool) : State :=
  match s.ctx? part slot with
  | none => s
  | some c =>
    (c.adds.filter p).foldl (fun s a =>
      if lost then (s.signalLost part slot a.what a.addr.toNat).finishAdd part slot a.what
      else s.performAdd part slot a.what a.addr.toNat a.n) (s.setCtx { c with adds := c.adds.filter (fun a => !p a) })

/-! ### Counters (R460) -/

def State.countAnswer (s : State) : State := { s with counters := { s.counters with answers := satInc s.counters.answers } }
def State.countDoorbell (s : State) : State := { s with counters := { s.counters with doorbells := satInc s.counters.doorbells } }
def State.countCsr (s : State) : State := { s with counters := { s.counters with csrs := satInc s.counters.csrs } }

/-! ### Resumable groups (R385) -/

/-- A group evicted, or on its way, becomes resumable, in the order in which groups do. A mark made while its context is
Suspended counts from RESUME, which stamps it again. -/
def State.makeResumable (s : State) (gid : Nat) : State :=
  match s.group? gid with
  | none => s
  | some g =>
    if (g.state ≠ .evicted ∧ g.state ≠ .evicting) ∨ g.resumable.isSome = true then s
    else { s.setGroup { g with resumable := some s.fresh, unplacedAt := s.ticks } with fresh := s.fresh + 1 }

/-! ### Answers (R402, R403) -/

/-- Whether a record can be answered: written, and not yet answered. -/
def Ctx.isLive (c : Ctx) (seq : BitVec 24) : Bool :=
  c.live.any (fun l => l.seq == seq) && !c.answers.any (fun a => a.1 == seq) && !c.heldFaults.any (fun r => r.seq == seq)

/-- The effect of an answer on the fragment parked on a record; none when its lanes have ended. -/
def State.applyAnswer (s : State) (ref : FragRef) (seq : BitVec 24) (a : Answer) : State :=
  match s.warp? ref.warp with
  | none => s
  | some w =>
    match w.frag? ref.frag with
    | none => s
    | some f =>
      if f.wait ≠ .parked seq then s
      else match a with
        | .resume => s.setWarp (w.setFrag (f.unpark false)).releaseBehind
        | .skip => s.setWarp (w.setFrag (f.unpark true)).releaseBehind
        | .kill => s.killLanes w.uid f.lanes

/-- The action of an answer word. -/
def answerOf (x : Word) : Option Answer :=
  if field x.toNat 24 6 ≠ 0 then none
  else match field x.toNat 30 2 with
    | 0 => some .resume
    | 1 => some .skip
    | 2 => some .kill
    | _ => none

/-- Whether the group that a record names holds its fragment in a phase record, where the answer waits (R403). -/
def State.answerHeld (s : State) (l : Live) : Bool :=
  l.frag.isSome && (match s.group? l.group with
    | some g => g.state == .evicting || g.state == .evicted || g.state == .resumed
    | none => false)

/-- A word written to FANS. -/
def State.answer (s : State) (part slot : Nat) (x : Word) : State :=
  match s.ctx? part slot with
  | none => s
  | some c =>
    let seq := x.setWidth 24
    match answerOf x, c.live.find? (fun l => l.seq == seq) with
    | some a, some l =>
      if c.isLive seq = false ∨ c.state = .faulted ∨ (l.code = 14 ∧ a ≠ .kill) then s.countAnswer
      else if s.answerHeld l then
        (s.setCtx { c with answers := c.answers ++ [(seq, a)] }).makeResumable l.group
      else
        let s := s.setCtx { c with live := c.live.filter (fun l => l.seq != seq) }
        match l.frag with
        | none => s
        | some r => s.applyAnswer r seq a
    | _, _ => s.countAnswer

/-! ### The pager's doorbell (R245) -/

/-- A fragment after a retry of a future (R245): it re-executes once no page of its wait is left. -/
def Frag.afterRetry (n : Nat) (f : Frag) : Frag :=
  match f.wait with
  | .futures js =>
    let rest := js.filter (fun j => j.n != some n)
    if js.any (fun j => j.n == some n) = false then f
    else if rest.isEmpty then f.retry
    else { f with wait := .futures rest }
  | _ => f

/-- The page of a fragment's wait whose future is refused. -/
def Frag.refusedJoin (n : Nat) (f : Frag) : Option Join :=
  match f.wait with
  | .futures js => js.find? (fun j => j.n == some n)
  | _ => none

/-- A waiting fragment after a refusal (R224, R245): the lanes of the page fault at once, and the others leave their futures and
re-execute. -/
def State.refuseFrag (s : State) (ref : FragRef) (n : Nat) : State :=
  match (s.warp? ref.warp).bind (fun w => (w.frag? ref.frag).map (fun f => (w, f))) with
  | none => s
  | some (w, f) =>
    match f.refusedJoin n with
    | none => s
    | some j =>
      (s.setWarp (w.setFrag f.retry)).raise ref { code := .prot, aux := j.aux, addr := j.addr, rpl := j.rpl, lanes := j.lanes }

/-- The fragments of a context. -/
def State.fragsOf (s : State) (c : Ctx) : List FragRef :=
  (s.warps.filter (fun w => (s.group? w.group).any (fun g => g.part == c.part && g.ctx == c.slot))).flatMap
    (fun w => w.frags.map (fun f => { warp := w.uid, frag := f.id }))

/-- A fragment that waits for a free future takes one when there is one (R244). -/
def State.joinFree (s : State) (c : Ctx) (ref : FragRef) : State :=
  match (s.warp? ref.warp).bind (fun w => w.frag? ref.frag) with
  | none => s
  | some f =>
    match f.wait with
    | .futures js =>
      if js.all (fun j => j.n.isSome) then s
      else
        let (s, js) := s.joinAll c.part c.slot js
        match s.warp? ref.warp with
        | some w => s.setWarp (w.setFrag { f with wait := .futures js })
        | none => s
    | _ => s

/-- Whether a recorded wait is met by an answered future (R385 code 3). -/
def Wait.freedBy (w : Wait) (n : Nat) : Bool :=
  match w with
  | .futures js => js.any (fun j => j.n == some n || j.n.isNone)
  | _ => false

/-- A packet read that the pager refused stops its queue with cause 7 (R427). -/
def SubQueue.afterFuture (n : Nat) (refuse : Bool) (q : SubQueue) : SubQueue :=
  if q.future ≠ some n then q
  else if refuse then { q with future := none, stop := true, cause := 7, rptr := (if q.blocked.isSome then q.rptr - 1 else q.rptr), blocked := none }
  else { q with future := none }

/-- A future of a context is answered (R245): its waiters go on or fault, and the future becomes free. Fragments that wait for a
free one take it before a headbox does, in the order of the warps (log entry 73). -/
def State.answerFuture (s : State) (c : Ctx) (n : Nat) (refuse : Bool) : State :=
  let c' : Ctx := { c with
    futures := c.futures.filter (fun f => f.n != n)
    queues := c.queues.map (SubQueue.afterFuture n refuse) }
  let s := s.setCtx c'
  let refs := s.fragsOf c
  let s :=
    if refuse then refs.foldl (fun s r => s.refuseFrag r n) s
    else { s with warps := s.warps.map (fun w =>
      if refs.any (fun r => r.warp == w.uid) then { w with frags := w.frags.map (Frag.afterRetry n) } else w) }
  let s := refs.foldl (fun s r => s.joinFree c r) s
  let s := (s.redoAdds c.part c.slot (fun a => a.future == some n) refuse).redoAdds c.part c.slot (fun a => a.future == none) false
  (s.groups.filter (fun g => g.part == c.part && g.ctx == c.slot && g.savedWaits.any (fun w => w.freedBy n))).foldl
    (fun s g => s.makeResumable g.uid) s

/-- A word written to PGDB. -/
def State.doorbell (s : State) (part slot : Nat) (x : Word) : State :=
  match s.ctx? part slot with
  | none => s
  | some c =>
    let n := field x.toNat 0 10
    let status := field x.toNat 30 2
    match c.futures.find? (fun f => f.n == n) with
    | some _ => if 2 ≤ status ∨ field x.toNat 10 20 ≠ 0 then s.countDoorbell else s.answerFuture c n (status == 1)
    | none => s.countDoorbell

/-! ### Context state registers (R395) -/

/-- The value of a register; FANS and PGDB read zero. -/
def Ctx.csr (c : Ctx) (n : Nat) : Word :=
  match n with
  | 0x00 => c.ctxid
  | 0x01 => BitVec.ofNat 32 (c.part * 256 + c.slot)
  | 0x02 => c.cfg.setWidth 32
  | 0x03 => lowHalf c.srseed
  | 0x04 => highHalf c.srseed
  | 0x05 => c.evth
  | 0x06 => c.pdl
  | 0x07 => c.rwth
  | 0x08 => lowHalf c.ptroot
  | 0x09 => highHalf c.ptroot
  | 0x0A => lowHalf c.savebase
  | 0x0B => highHalf c.savebase
  | 0x0C => c.savesize
  | 0x10 => lowHalf c.fqbase
  | 0x11 => highHalf c.fqbase
  | 0x12 => c.fqsize
  | 0x13 => c.fqhead
  | 0x14 => c.fqtail
  | 0x15 => lowHalf c.fqsig
  | 0x16 => highHalf c.fqsig
  | 0x18 => lowHalf c.prqbase
  | 0x19 => highHalf c.prqbase
  | 0x1A => c.prqsize
  | 0x1B => c.prqhead
  | 0x1C => c.prqtail
  | _ => 0

/-- A 64-bit register with one half replaced. -/
def setLow (x : Dword) (w : Word) : Dword := pairOf w (highHalf x)
def setHigh (x : Dword) (w : Word) : Dword := pairOf (lowHalf x) w

/-- A queue size of R395: 0, or a power of two from 64 to 2^20. -/
def queueSizeOk (x : Word) : Bool := x == 0 || (List.range 15).any (fun i => x.toNat == 2 ^ (i + 6))

/-- Whether a write of a register is discarded: a reserved bit at one, or a size outside its list. -/
def csrBad (n : Nat) (x : Word) : Bool :=
  let v := x.toNat
  match n with
  | 0x02 => decide (8 ≤ v)
  | 0x10 => field v 0 6 != 0
  | 0x11 => decide (2 ^ 25 ≤ v)
  | 0x12 => !queueSizeOk x
  | 0x15 => field v 0 3 != 0
  | 0x16 => decide (2 ^ 25 ≤ v)
  | 0x18 => field v 0 4 != 0
  | 0x19 => decide (2 ^ 25 ≤ v)
  | 0x1A => !queueSizeOk x
  | _ => false

/-- Whether a write of PTROOT or SAVEBASE sets a bit that must be zero: it is rejected (R3), and R395 does not list it among those
counted (log entry 87). -/
def csrZeros (n : Nat) (x : Word) : Bool := (n == 0x08 || n == 0x0A) && field x.toNat 0 12 != 0

/-- A register with its new value. -/
def Ctx.setCsr (c : Ctx) (n : Nat) (x : Word) : Ctx :=
  match n with
  | 0x00 => { c with ctxid := x }
  | 0x02 => { c with cfg := x.setWidth 3 }
  | 0x03 => { c with srseed := setLow c.srseed x }
  | 0x04 => { c with srseed := setHigh c.srseed x }
  | 0x05 => { c with evth := x }
  | 0x06 => { c with pdl := x }
  | 0x07 => { c with rwth := x }
  | 0x08 => { c with ptroot := setLow c.ptroot x }
  | 0x09 => { c with ptroot := setHigh c.ptroot x }
  | 0x0A => { c with savebase := setLow c.savebase x }
  | 0x0B => { c with savebase := setHigh c.savebase x }
  | 0x0C => { c with savesize := x }
  | 0x10 => { c with fqbase := setLow c.fqbase x }
  | 0x11 => { c with fqbase := setHigh c.fqbase x }
  | 0x12 => { c with fqsize := x }
  | 0x13 => { c with fqhead := x }
  | 0x14 => { c with fqtail := x }
  | 0x15 => { c with fqsig := setLow c.fqsig x }
  | 0x16 => { c with fqsig := setHigh c.fqsig x }
  | 0x18 => { c with prqbase := setLow c.prqbase x }
  | 0x19 => { c with prqbase := setHigh c.prqbase x }
  | 0x1A => { c with prqsize := x }
  | 0x1B => { c with prqhead := x }
  | 0x1C => { c with prqtail := x }
  | _ => c

/-- Held records of a context tried again after its queue registers change (R492). -/
def State.retryQueues (s : State) (part slot : Nat) : State :=
  match s.ctx? part slot with
  | none => s
  | some c =>
    let s := s.flushFaultsOf c
    match s.ctx? part slot with
    | none => s
    | some c => s.flushRequestsOf c

/-- A write to a register that the writer may write: its effect, or a discard that is counted. -/
def State.writeCsr (s : State) (part slot n : Nat) (x : Word) : State :=
  match s.ctx? part slot with
  | none => s
  | some c =>
    if n = 0x01 ∨ csrBad n x = true then s.countCsr
    else if csrZeros n x then s
    else if n = 0x17 then s.answer part slot x
    else if n = 0x1D then s.doorbell part slot x
    else
      let s := s.setCtx (c.setCsr n x)
      if 0x10 ≤ n then s.retryQueues part slot else s

end Sys2Proof.Machine
end

