-- ==== Sys2Proof/Machine/Phase.lean ====
section
/-! DEFINITION. The phase record of a group: its layout as the device writes it, and what a restore reads back (R149, R150, R381
to R386). -/

namespace Sys2Proof.Machine

/-- Numbers of `n` bytes each from a byte upward. -/
def putEach (m : List Host.Cell) (a n : Nat) (xs : List Nat) : List Host.Cell := memPut m a (xs.flatMap (bytesLE n))

/-- `k` numbers of `n` bytes each from a byte upward. -/
def getEach (m : List Host.Cell) (a n k : Nat) : List Nat := (List.range k).map (fun i => memNat m (a + n * i) n)

/-! ### Wake codes (R384) -/

/-- The wake code of a wait that a fragment left at E. -/
def Wait.code : Wait → Nat
  | .barrier .. => 1
  | .member _ => 1
  | .queue .. => 2
  | .futures _ => 3
  | .claim .. => 4
  | .signal .. => 5
  | .remote .. => 6
  | _ => 9

/-- The wake code of a fragment. -/
def Frag.wakeCode (role : Role) (f : Frag) : Nat :=
  match f.wait with
  | .parked _ => 0
  | .left w => w.code
  | .held => 7
  | .behind => 7
  | _ => if role = .epilogue ∧ f.record = none then 8 else 9

/-- The WAKE word. -/
def Frag.wakeWord (role : Role) (f : Frag) : Nat :=
  f.wakeCode role + (match f.wait with
    | .left (.futures (x :: _)) => x.n.getD 0 * 2 ^ 16
    | .left (.barrier _ _ _ true) => 2 ^ 4
    | _ => 0)

/-- WADDR. -/
def Frag.waddr (f : Frag) : Nat :=
  match f.wait with
  | .left (.futures (x :: _)) => x.page * 4096
  | .left (.signal addr _) => addr.toNat
  | .left (.remote _ _ _ ((_, va, _) :: _)) => va / 128 * 128
  | _ => 0

/-- WVAL. -/
def Frag.wval (f : Frag) : Nat :=
  match f.wait with
  | .left (.signal _ val) => val.toNat
  | _ => 0

/-- The program counter recorded: the chain head, the `CVWAIT` for code 7, the next word for code 9. -/
def Frag.savedPc (f : Frag) : Nat :=
  match f.wait with
  | .held => (f.skip - 4).toNat
  | .behind => (f.skip - 4).toNat
  | .parked _ => f.head.toNat
  | .left _ => f.head.toNat
  | _ => f.pc.toNat

/-! ### Writing (R149, R381 to R384) -/

/-- H0 of a slot image. -/
def Slot.head (x : Slot) : Nat :=
  let count := (x.body.length - 1) * 2 ^ 3
  match x.state with
  | .empty => 0
  | .defined => 1 + count
  | _ => 3 + count + (if x.w64 then 2 ^ 5 else 0) + (if x.fz then 2 ^ 6 else 0) + x.vd * 2 ^ 8 + x.depth * 2 ^ 16

/-- A slot image at a byte. -/
def putSlot (m : List Host.Cell) (a : Nat) (x : Slot) : List Host.Cell :=
  if x.state = .empty then m
  else
    let m := putEach m a 4 (x.body.map BitVec.toNat)
    let m := putEach m (a + 80) 4 [x.head]
    if x.bound then
      putEach (putEach m (a + 16) 16 (x.caps.map BitVec.toNat)) (a + 84) 4 [x.tmask.toNat, x.tagSeq]
    else m

/-- A fragment entry at a byte. -/
def putFrag (m : List Host.Cell) (a : Nat) (f : Frag) : List Host.Cell :=
  let fst := f.conv.length * 2 ^ 16 + f.ret.length * 2 ^ 8 + f.record.getD 15 * 2 ^ 4
  let m := putEach m a 8 [f.savedPc]
  let m := putEach m (a + 8) 4 [f.lanes.toNat, fst, f.wakeWord .epilogue]
  let m := putEach m (a + 24) 8 [f.waddr, f.wval]
  let m := putEach m (a + 64) 8 (f.ret.reverse.map BitVec.toNat)
  putEach m (a + 192) 16 (f.conv.reverse.map (fun e => e.p.toNat + e.m.toNat * 2 ^ 64 + e.d * 2 ^ 96))

/-- The names whose values are saved: mapped and not tagged. -/
def Warp.savedNames (w : Warp) : List Nat := (w.v.map Prod.fst).filter (fun n => (w.tagOf n).isNone)

/-- The bytes of a warp part. -/
def partBytes (role : Role) (names : Nat) : Nat := if role = .epilogue then 12736 + 128 * names else 1024

def Warp.partBytes (w : Warp) : Nat := Machine.partBytes w.role w.savedNames.length

/-- WHDR. -/
def Warp.header (w : Warp) : Nat :=
  w.index * 2 ^ 24 + w.pos * 2 ^ 21 + modeNat w.mode * 2 ^ 19 + roleNat w.role * 2 ^ 17 +
    (if w.frags.any Frag.parked then 2 ^ 16 else 0) + w.budget

/-- What every warp part holds. -/
def Warp.commonPart (w : Warp) : List Host.Cell :=
  let m := putEach [] 0 4 [w.header, w.partBytes, w.fpflags.toNat, w.srctr.toNat, w.c.toNat]
  let m := putEach m 64 4 (w.s.toList.map BitVec.toNat)
  let m := putEach m 320 4 ((w.k.toList.drop 1).map BitVec.toNat)
  let m := putEach m 352 16 (w.d.toList.map BitVec.toNat)
  putEach m 608 4 ((List.range 16).flatMap (fun b => [if w.wpar.getLsbD b then 1 else 0, (w.la.getD b 0).toNat]))

/-- The part of a copy or maths warp. -/
def Warp.streamPart (w : Warp) : List Host.Cell :=
  match w.frags with
  | [] => w.commonPart
  | f :: _ =>
    let m := putEach w.commonPart 20 4 [f.wakeWord w.role]
    let m := putEach m 24 8 [f.waddr, f.wval]
    let m := putEach m 48 8 [f.savedPc]
    let m := putEach m 736 8 (f.ret.reverse.map BitVec.toNat)
    putEach m 864 4 [f.ret.length]

/-- The part of an epilogue warp. -/
def Warp.lanePart (w : Warp) : List Host.Cell :=
  let names := w.savedNames
  let m := putEach w.commonPart 40 4 [w.frags.length]
  let m := putEach m 736 4 [(maskOf (fun L => w.locks.any (fun l => l.1 == L))).toNat]
  let m := w.locks.foldl (fun m l => putEach m (768 + 4 * l.1) 4 [l.2]) m
  let m := (List.range 16).foldl (fun m n => putSlot m (896 + 96 * n) (w.slot? n)) m
  let m := (w.frags.zip (List.range 32)).foldl (fun m f => putFrag m (2432 + 320 * f.2) f.1) m
  let m := putEach m 12672 16 [(maskUpTo (fun n => names.contains n) 128).toNat]
  (names.zip (List.range names.length)).foldl (fun m n =>
    putEach m (12736 + 128 * n.2) 4 ((w.getV n.1).toList.map BitVec.toNat)) m

def Warp.image (w : Warp) : List Host.Cell := if w.role = .epilogue then w.lanePart else w.streamPart

/-- The warps of a group as the record holds them: copy, maths, epilogue, each by `%warp`. -/
def orderWarps (ws : List Warp) : List Warp := sortBy (fun w => roleNat w.role * 256 + w.index) ws

/-- The bytes of a core section. -/
def KernelDesc.sectionBytes (kd : KernelDesc) : Nat := 64 + (kd.sp + kd.ts) * 65536

/-- A core section at a byte. -/
def Group.putSection (g : Group) (kd : KernelDesc) (m : List Host.Cell) (p : Nat) : List Host.Cell :=
  let a := 128 + kd.sectionBytes * p
  let m := putEach m a 4 [p, g.granulesAt p]
  let m := memSplice m (a + 64) (kd.sp * 65536) (g.spadAt p)
  memSplice m (a + 64 + kd.sp * 65536) (kd.ts * 65536) (g.tilesAt p)

/-- Counts as `GINFO` writes them: copy lowest. -/
def countWord (f : Nat → Nat) : Nat := f 0 + f 1 * 2 ^ 8 + f 2 * 2 ^ 16

/-- The phase record of a group, as a memory of its own (R381). -/
def State.phaseRecord (s : State) (g : Group) (grid : Grid) : List Host.Cell :=
  let ws := orderWarps (s.warpsOf g)
  let kd := grid.kd
  let live := countWord (fun r => (ws.filter (fun w => roleNat w.role == r)).length)
  let m := putEach [] 0 4 [1, ws.length * 2 ^ 16 + g.span, g.gx.toNat, g.gy.toNat, g.gz.toNat, grid.kid, live,
    countWord (fun r => g.pend.getD r 0), (satInc g.evct).toNat, grid.gridn.toNat]
  let m := putEach m 40 8 [g.evictedAt * 10 / 27]
  let m := putEach m 64 8 ((List.range g.span).map (fun p => 128 + kd.sectionBytes * p))
  let m := (List.range g.span).foldl (fun m p => g.putSection kd m p) m
  (ws.foldl (fun (acc : List Host.Cell × Nat) w => (memSplice acc.1 acc.2 w.partBytes w.image, acc.2 + w.partBytes))
    (m, 128 + kd.sectionBytes * g.span)).1

/-! ### Checks of a restore (R150, R386) -/

/-- Whether some 32-bit word, from a list of byte offsets and masks, has a masked bit. -/
def anyMasked (m : List Host.Cell) (xs : List (Nat × Nat)) : Bool := xs.any (fun x => Nat.land (memNat m x.1 4) x.2 != 0)

/-- Whether some byte of a range is not zero. -/
def anyByte (m : List Host.Cell) (a n : Nat) : Bool := m.any (fun c => decide (a ≤ c.1) && decide (c.1 < a + n) && c.2 != 0)

/-- The bits of a word's capture area that it fills (R149); `temps` are the scalars that earlier words write. -/
def BodyOp.capMask (temps : List Nat) : BodyOp → Nat
  | .vld .. => 2 ^ 128 - 1
  | .vcvt .. => 2 ^ 64 - 1
  | o => o.sreads.foldl (fun m p => if temps.contains p.2 then m else Nat.lor m (0xFFFFFFFF * 2 ^ (8 * p.1))) 0

/-- The same of each word of a body; a word that no body may hold fills nothing. -/
def capMasks : List Nat → List Word → List Nat
  | _, [] => []
  | temps, w :: ws =>
    match (wordUD w).bind bodyOp with
    | none => 0 :: capMasks temps ws
    | some o => o.capMask temps :: capMasks (o.swrites ++ temps) ws

/-- Whether the body or a capture area of a slot image has a bit that its words leave zero. -/
def badBody (m : List Host.Cell) (a n : Nat) : Bool :=
  let body := (getEach m a 4 n).map (BitVec.ofNat 32)
  anyByte m (a + 4 * n) (16 - 4 * n) || anyByte m (a + 16 + 16 * n) (64 - 16 * n) ||
    ((getEach m (a + 16) 16 n).zip (capMasks [] body)).any (fun x => Nat.land x.1 (2 ^ 128 - 1 - x.2) != 0)

/-- A slot image that fails: an Empty one is all zeros, a Defined one holds its state, its count and its body, and what the words of a
body do not use is zero. -/
def badSlot (m : List Host.Cell) (a : Nat) : Bool :=
  let h := memNat m (a + 80) 4
  anyMasked m [(a + 80, 0xFFFC8080), (a + 92, 0xFFFFFFFF)] ||
    (match field h 0 3 with
      | 0 => anyByte m a 96
      | 1 => decide (32 ≤ h) || anyByte m (a + 16) 64 || anyByte m (a + 84) 8 || badBody m a (field h 3 2 + 1)
      | 3 => badBody m a (field h 3 2 + 1)
      | _ => true)

/-- A WAKE word at one byte with its WADDR and WVAL at another that fails: the future number, BS and the two fields are zero but for
the codes that use them. -/
def badWake (m : List Host.Cell) (a b : Nat) : Bool :=
  let x := memNat m a 4
  let code := field x 0 4
  anyMasked m [(a, 0xFC00FFE0)] || decide (10 ≤ code) || (code != 3 && field x 16 10 != 0) || (code != 1 && x.testBit 4) ||
    (!(code == 3 || code == 5 || code == 6) && anyByte m b 8) || (code != 5 && anyByte m (b + 8) 8)

/-- A fragment entry that fails. -/
def badFrag (m : List Host.Cell) (a : Nat) : Bool :=
  anyMasked m [(a + 12, 0xFFF0E00F)] || badWake m (a + 16) (a + 24) || anyByte m (a + 20) 4 || anyByte m (a + 40) 24

/-- A warp part that fails. -/
def badPart (m : List Host.Cell) (role : Role) : Bool :=
  let common := anyMasked m [(0, 0xFFE0), (8, 0xFFFFFFE0), (16, 0xFFFFFF00)] || anyByte m 44 4 || anyByte m 56 8 || anyByte m 348 4 ||
    (List.range 16).any (fun b => anyMasked m [(608 + 8 * b, 0xFFFFFFFE)])
  if role = .epilogue then
    let n := memNat m 40 4
    common || anyByte m 20 20 || anyByte m 48 8 || decide (64 ≤ n) || anyByte m 740 28 ||
      (List.range 16).any (fun x => badSlot m (896 + 96 * x)) ||
      (List.range n).any (fun i => badFrag m (2432 + 320 * i)) || anyByte m (2432 + 320 * n) (320 * (32 - n)) ||
      anyByte m 12688 48 || memNat m 4 4 != partBytes role (popCount (BitVec.ofNat 128 (memNat m 12672 16)))
  else
    common || anyMasked m [(0, 0x1F)] || badWake m 20 24 || anyByte m 40 4 || anyByte m 320 32 || anyByte m 868 156 || memNat m 4 4 != partBytes role 0

/-- A header or core section that fails. -/
def badHeader (m : List Host.Cell) (span : Nat) : Bool :=
  memNat m 0 4 != 1 || anyMasked m [(4, 0xFF00FFF0), (24, 0xFF000000), (28, 0xFF000000)] || anyByte m 48 16 ||
    anyByte m (64 + 8 * span) (8 * (8 - span)) ||
    (List.range span).any (fun p =>
      let a := memNat m (64 + 8 * p) 8
      anyMasked m [(a, 0xFFFFFFF8), (a + 4, 0xFFFFFF00)] || anyByte m (a + 8) 56)

/-! ### Reading back (R386) -/

/-- A slot image read back: Tagged-live is saved as Dropped. -/
def getSlot (m : List Host.Cell) (a : Nat) : Slot :=
  let h := memNat m (a + 80) 4
  let body := (getEach m a 4 (field h 3 2 + 1)).map (BitVec.ofNat 32)
  let caps := (getEach m (a + 16) 16 (field h 3 2 + 1)).map (BitVec.ofNat 128)
  match field h 0 3 with
  | 0 => Slot.none
  | 1 => { Slot.none with state := .defined, body := body }
  | _ =>
    let x : Slot :=
      { state := .dropped, body := body, caps := caps, vd := field h 8 7, w64 := h.testBit 5, depth := field h 16 2,
        tmask := BitVec.ofNat 32 (memNat m (a + 84) 4), tagSeq := memNat m (a + 88) 4, fz := h.testBit 6, inputs := [] }
    { x with inputs := bodyInputs [] x.ops }

/-- The wait of a restored fragment: parked on a live record, waiting at a `CVWAIT`, or none. -/
def restoredWait (code : Nat) (record : Option Nat) (live : Option Live) : Wait :=
  match code with
  | 0 => .parked ((live.map Live.seq).getD 0)
  | 7 => if record = none then .held else .behind
  | _ => .none

/-- The live record that parked the lanes of a warp (R384 code 0). -/
def Ctx.recordOf (c : Ctx) (gid : Nat) (w : Warp) (lanes : Word) : Option Live :=
  c.live.reverse.find? (fun l => l.frag.isSome && l.group == gid && l.role == w.role && l.index == w.index && l.lanes == lanes)

/-- A fragment entry read back. What it gives as a code address is one (R35; log entry 96). -/
def getFrag (c : Ctx) (gid : Nat) (w : Warp) (m : List Host.Cell) (id : Nat) : Frag :=
  let a := 2432 + 320 * id
  let pc := codeAddress (memNat m a 8)
  let lanes := BitVec.ofNat 32 (memNat m (a + 8) 4)
  let fst := memNat m (a + 12) 4
  let wake := memNat m (a + 16) 4
  let record := if field fst 4 4 = 15 then none else some (field fst 4 4)
  let live := c.recordOf gid w lanes
  let code := field wake 0 4
  { Frag.fresh id record lanes pc with
    skip := if code = 0 then (live.map Live.skip).getD (pc + 4) else pc + 4
    ret := ((getEach m (a + 64) 8 (field fst 8 5)).map codeAddress).reverse
    conv := ((getEach m (a + 192) 16 (field fst 16 4)).map (fun x =>
      { p := codeAddress (x % 2 ^ 64), m := BitVec.ofNat 32 (x / 2 ^ 64), d := x / 2 ^ 96 : Conv })).reverse
    wait := restoredWait code record live
    arrived := if code == 1 && wake.testBit 4 then some w.wpar else none }

/-- The stream of a copy or maths warp read back. -/
def getStream (c : Ctx) (gid : Nat) (w : Warp) (m : List Host.Cell) : Frag :=
  let pc := codeAddress (memNat m 48 8)
  let wake := memNat m 20 4
  let live := c.recordOf gid w 1
  { Frag.fresh 0 none 1 pc with
    skip := if field wake 0 4 = 0 then (live.map Live.skip).getD (pc + 4) else pc + 4
    ret := ((getEach m 736 8 (memNat m 864 4)).map codeAddress).reverse
    wait := restoredWait (field wake 0 4) none live
    arrived := if field wake 0 4 == 1 && wake.testBit 4 then some w.wpar else none }

/-- A warp, placed again, with what its part holds. -/
def Warp.restored (w : Warp) (c : Ctx) (gid : Nat) (m : List Host.Cell) : Warp :=
  let word := fun a => BitVec.ofNat 32 (memNat m a 4)
  let w : Warp := { w with
    started := true
    fpflags := BitVec.ofNat 5 (memNat m 8 4)
    srctr := word 12
    c := BitVec.ofNat 8 (memNat m 16 4)
    s := Vector.ofFn (fun i => word (64 + 4 * i.val))
    k := Vector.ofFn (fun i => if i.val = 0 then 0 else word (316 + 4 * i.val))
    d := Vector.ofFn (fun i => BitVec.ofNat 128 (memNat m (352 + 16 * i.val) 16))
    wpar := maskUpTo (fun b => (memNat m (608 + 8 * b) 4).testBit 0) 16
    la := Vector.ofFn (fun b => word (612 + 8 * b.val)) }
  if w.role = .epilogue then
    let names := (List.range 128).filter (fun n => (memNat m 12672 16).testBit n)
    let frags := (List.range (memNat m 40 4)).map (getFrag c gid w m)
    { w with
      budget := field (memNat m 0 4) 0 5
      locks := (lanesOf (word 736)).map (fun L => (L, memNat m (768 + 4 * L) 4))
      slots := Vector.ofFn (fun x => getSlot m (896 + 96 * x.val))
      frags := frags
      nextFrag := frags.length
      v := (names.zip (List.range names.length)).map (fun n => (n.1, perLane (fun L => word (12736 + 128 * n.2 + 4 * L)))) }
  else { w with frags := [getStream c gid w m] }

end Sys2Proof.Machine
end

