-- ==== Sys2Proof/Machine/Evict.lean ====
section
/-! DEFINITION. Machine checks (R28, R31), and eviction: the save area, instant E, the phase record and what follows it (R272, R365,
R367, R378 to R385, R396, R397). -/

namespace Sys2Proof.Machine

/-! ### Machine checks and group events -/

/-- The fault of a machine check that no fragment consumed (R28, R398): its address alone. -/
def mcheckRecord (addr : Nat) : Record := { eventRecord 0 addr 0 0 0 0 0 with code := 14 }

/-- A context becomes Faulted and its grids are Abandoned (R28, R389, R428). -/
def State.failContext (s : State) (c : Ctx) : State :=
  let s := s.setCtx { c with state := .faulted, adds := c.adds.filter (fun a => !(a.what matches .grid _)) }
  { s with grids := s.grids.map (fun (g : Grid) => if g.part = c.part ∧ g.ctx = c.slot then { g with state := .abandoned } else g) }

/-- Whether a machine check changes the context: one already Faulted receives no further one (R31). -/
def Ctx.mayFail (c : Ctx) : Bool := c.state != .faulted && c.state != .destroying

/-- A context ends with `MCHK`: the context is Faulted and the record, which names no fragment, is written (R28, R398). -/
def State.machineCheck (s : State) (part slot addr : Nat) : State :=
  match s.ctx? part slot with
  | none => s
  | some c => if c.mayFail then (s.failContext c).postRecord part slot (mcheckRecord addr) (Live.plain 0 14) else s

/-- The instruction of a fragment consumed the data: it does not complete, and its fragment parks with the record, which ends the
context (R28, R398). `slot` is the recipe slot in whose replay it did (R144). -/
def State.machineCheckAt (s : State) (ref : FragRef) (slot : Option Nat) (addr : Nat) : State :=
  match s.warp? ref.warp with
  | none => s
  | some w =>
    match w.frag? ref.frag, (s.group? w.group).bind s.ctxOf with
    | some f, some c =>
      if c.mayFail = false then s
      else if f.parked ∨ f.wait = .held then s.machineCheck c.part c.slot addr
      else ({ s.failContext c with remotes := s.remotes.filter (fun r => r.frag != ref) }).raise ref { code := .mchk, addr := BitVec.ofNat 64 addr, rpl := slot }
    | _, _ => s

/-- A context event that names a group (R400, R404). -/
def State.groupEvent (s : State) (g : Group) (detail : Nat) : State :=
  let grid := s.grid? g.grid
  s.postRecord g.part g.ctx
    (eventRecord detail 0 ((grid.map Grid.kid).getD 0) ((grid.map (fun x => x.gridn.toNat)).getD 0) g.gx g.gy g.gz) (Live.plain 0 0)

/-! ### States of groups (R365) -/

/-- A group that holds cores. -/
def Group.resident (g : Group) : Bool :=
  match g.state with
  | .placed => true
  | .running => true
  | .waiting => true
  | .evicting => true
  | .resumed => true
  | .retiring => true
  | _ => false

/-- A group that waits for placement. -/
def Group.unplaced (g : Group) : Bool := g.state == .pending || (g.state == .evicted && g.resumable.isSome && !g.doomed)

/-- The requests that placements of `uid` made are met, and groups evicted under them become resumable (R385). -/
def State.releasePressed (s : State) (uid : Nat) : State :=
  let pressed := fun (g : Group) => g.preempt.any (fun p => p.cause == some uid)
  let s' := { s with groups := s.groups.map (fun (g : Group) =>
    { g with preempt := g.preempt.map (fun p => if p.cause = some uid then { p with met := true } else p) }) }
  (s.groups.filter (fun g => pressed g && g.state == .evicted)).foldl (fun s g => s.makeResumable g.uid) s'

/-! ### The save area (R396, R397) -/

/-- The lowest offset at which a record fits, and the lowest free directory entry. -/
def Ctx.room (c : Ctx) (size : Nat) : Option (Nat × Nat) :=
  let fits := fun o => decide (o + size ≤ c.savesize.toNat * 4096) && c.placed.all (fun p => !rangesMeet o size p.1 p.2.1)
  match (sortBy id (0x9000 :: c.placed.map (fun p => p.1 + p.2.1))).find? fits,
      (List.range 4096).find? (fun e => !c.placed.any (fun p => p.2.2 == e)) with
  | some o, some e => some (o, e)
  | _, _ => none

/-- The end of a run of bytes that is away from a die, if one is. -/
def awayEnd (die key n : Nat) : Nat := if away die key then key else key + n - 1

/-- A headbox's access to bytes of a context's save area: none until the access tables allow it (R392), the host holds none of its
lines (R440), and, from another die, it can cross link 0: a write in class 3, a read in class 0 (R273, R436; log entries 83 and 84). -/
def State.saveAccess (s : State) (c : Ctx) (die off n : Nat) (write : Bool) : Option State :=
  let key := c.savebase.toNat + off
  let at_ := awayEnd die key n
  let from_ := Sender.ofDie die c.part c.slot
  if s.rangeAllows (c.headboxOf die) key n write = false ∨ s.hostHeld.any (fun l => rangesMeet (128 * l) 128 key n) = true then none
  else if write then (if s.crosses die 3 at_ then some (s.cross from_ 3 at_) else none)
  else (if s.exchanges die 0 at_ then some (s.exchange from_ 0 at_) else none)

/-- The offset of a directory entry. -/
def dirEntry (e : Nat) : Nat := 0x1000 + 8 * e

/-- Bytes of a save area written by the headbox of a die. -/
def State.writeSave (s : State) (c : Ctx) (die off n : Nat) (img : List Host.Cell) : Option State :=
  (s.saveAccess c die off n true).map (fun s => { s with mem := memSplice s.mem (c.savebase.toNat + off) n img })

/-- A directory entry written. -/
def State.writeDir (s : State) (c : Ctx) (die e x : Nat) : Option State := s.writeSave c die (dirEntry e) 8 (cellsOf 0 (bytesLE 8 x))

/-- The die whose headbox acts for a group: that of its cores, and die 0 for one that holds none (R13; log entry 107). -/
def Group.headboxDie (g : Group) : Nat := (g.places.head?).elim 0 (fun p => dieOf p.core)

/-- Names that the remote atomics of a warp may still map (R367). -/
def State.mayMap (s : State) (w : Warp) : Nat :=
  let ns := (s.remotes.filter (fun r => r.frag.warp == w.uid)).flatMap (fun r =>
    match r.dest with
    | .vector vd wide _ => if wide then [vd, vd + 1] else [vd]
    | _ => [])
  ((ns.foldl (fun (acc : List Nat) n => if acc.contains n then acc else n :: acc) []).filter (fun n => !w.mapped n)).length

/-- The size of a group's record (R397). -/
def State.recordSize (s : State) (g : Group) (kd : KernelDesc) : Nat :=
  roundUp (128 + g.span * kd.sectionBytes + (s.warpsOf g).foldl (fun a w => a + (w.partBytes + 128 * s.mayMap w)) 0) 4096

/-! ### Instant E (R367, R379) -/

/-- A fragment leaves its wait at E; a remote atomic is awaited, and parked, held and queued fragments stay as they are. -/
def Frag.leave (f : Frag) : Frag :=
  match f.wait with
  | .none => f
  | .parked _ => f
  | .held => f
  | .behind => f
  | .remote _ true _ _ => f
  | w => { f.atHead with wait := .left w }

/-- The event SAVEFULL, once until room is found. -/
def State.saveFull (s : State) (g : Group) (c : Ctx) : State :=
  if c.saveFull then s else (s.setCtx { c with saveFull := true }).groupEvent g 3

/-- Eviction begins, when the save area has room and die 0's headbox can direct it; a group of which warps are to end is evicted once
they have. It is a release at device scope of the group's cores: every store of theirs performs (R272, R379). -/
def State.beginEviction (s : State) (gid : Nat) : State :=
  match s.group? gid with
  | none => s
  | some g =>
    match s.ctxOf g, s.grid? g.grid with
    | some c, some grid =>
      if g.state ≠ .waiting ∨ g.kills.isEmpty = false then s
      else
        let size := s.recordSize g grid.kd
        match c.room size with
        | none => s.saveFull g c
        | some (o, e) =>
          if s.mayDirect g.headboxDie = false then s
          else
            let s := (s.direct g.headboxDie).setCtx { c with placed := c.placed ++ [(o, size, e)], saveFull := false }
            let waits := (s.warpsOf g).flatMap (fun w => w.frags.map Frag.wait)
            let cores := g.places.map Place.core
            let s := s.setGroup { g with state := .evicting, evictedAt := s.ticks, saved := some (o, size, e), resumable := none,
                                         savedWaits := waits, storesAt := cores.map s.storeNumber }
            let s := s.mapWarps gid (fun w => { w with frags := w.frags.map Frag.leave })
            s.performWhere (fun e => cores.contains e.core)
    | _, _ => s

/-! ### Why a group is evicted (R378) -/

/-- The residents of a partition. -/
def State.residents (s : State) (part : Nat) : List Group := s.groups.filter (fun g => g.part == part && g.resident)

/-- The group of a partition that has been Waiting longest, among those that have waited longer than the EVTH of their context; ties go
to the group placed last. R378 can be read to evict none when the longest of all has not passed its own EVTH (log entry 112). -/
def State.longestWaiting (s : State) (part : Nat) : Option Group :=
  ((s.residents part).filter (fun g => g.state == .waiting && s.olderThan g.waitingAt (((s.ctxOf g).map (fun c => c.evth.toNat)).getD 0))).foldl
    (fun (b : Option Group) g =>
      match b with
      | none => some g
      | some b => if g.waitingAt < b.waitingAt ∨ (g.waitingAt = b.waitingAt ∧ b.placedAt < g.placedAt) then some g else some b) none

/-- EVICTION: instant E of a Waiting group under a standing pre-emption request (R378). Placement pressure and the register
arbiter begin an eviction in their own events. -/
def execEviction (gid : Nat) (s : State) : Host.Outcome State Fault Refusal :=
  match s.group? gid with
  | none => .next s
  | some g => .next (if g.preempt.isEmpty then s else s.beginEviction gid)

/-! ### The record written (R379 steps 2 to 6) -/

/-- The cores of a group with the store numbers below which their accesses belong to its eviction (R272). -/
def Group.releases (g : Group) : List (Nat × Nat) := (g.places.map Place.core).zip g.storesAt

/-- Whether a release tag names one of those stores (R268). -/
def Tag.among (t : Tag) (rs : List (Nat × Nat)) : Bool := rs.any (fun r => t.core == r.1 && decide (t.seq < r.2))

/-- Whether an access before a group's eviction has not performed, or one that a release tag names is not acknowledged (R268,
R272). -/
def State.groupUnperformed (s : State) (g : Group) : Bool :=
  g.releases.any (fun r => s.unperformed r.1 r.2 || (s.tags.any (fun t => t.among [r]) && s.unacknowledged r.1 r.2))

/-- Whether some copy, engine operation or remote atomic of a group is not complete. -/
def State.groupBusy (s : State) (g : Group) : Bool :=
  s.copies.any (fun c => c.group == g.uid) || s.engines.any (fun o => o.group == g.uid) ||
    s.remotes.any (fun r => r.group == g.uid)

/-- Whether the saved image meets a fragment's wait, or its code makes the group resumable at once (R385 codes 1, 2, 4, 9). -/
def State.metAtSave (s : State) (g : Group) (w : Warp) (f : Frag) : Bool :=
  match f.wait with
  | .left (.barrier b p _ _) => (s.barOf g.uid b).pseq.testBit 0 != p
  | .left (.member b) => !w.pending.getLsbD b
  | .left (.queue q op _) =>
    let kd := s.kernelOf g.uid
    op.ready (ringAt (s.spadOf g.uid w.pos) (kd.queueBase q)) (queueDepth (kd.queueCfg q))
  | _ => f.wakeCode w.role == 4 || f.wakeCode w.role == 9

/-- Whether a placement request under which a group was evicted no longer holds it back (R385). -/
def Group.pressureGone (g : Group) : Bool := g.preempt.any Preempt.met

/-- The wait that a fragment left, or its wait. -/
def Wait.inner : Wait → Wait
  | .left w => w
  | w => w

/-- Whether the record of an Evicting group is to be written: no format entry of its context is Updating, nothing of the group
is in flight, and its stores have performed. -/
def State.recordReady (s : State) (g : Group) : Bool :=
  g.state == .evicting && !s.groupBusy g && !s.groupUnperformed g && (s.ctxOf g).any (fun c => c.updating.isEmpty)

/-- The record written at its place in the save area, and then its directory entry, by the headbox of the group's die; the tags of
its cores are drained (R272). None until the save area takes both. -/
def State.writeRecord (s : State) (c : Ctx) (g : Group) (saved : Nat × Nat × Nat) (img : List Host.Cell) (n : Nat) : Option State :=
  ((s.writeSave c g.headboxDie saved.1 n img).bind (fun s => s.writeDir c g.headboxDie saved.2.2 saved.1)).map (fun s =>
    { s with tags := s.tags.filter (fun t => !t.among g.releases) })

/-- The group leaves its cores: slots, granules and locks are free. -/
def State.leaveCores (s : State) (g : Group) (g' : Group) : State :=
  let s := { s.setGroup { g' with places := [] } with warps := s.warps.filter (fun w => w.group != g.uid) }
  (g.places.map Place.core).foldl State.grantOnCore s

/-! ### The end of a group (R365, R397) -/

/-- The directory entry of a group's record is zero again, and its space free; none until the entry can be written. -/
def State.freeRecord (s : State) (g : Group) : Option State :=
  match s.ctxOf g, g.saved with
  | some c, some saved =>
    (s.setCtx { c with placed := c.placed.filter (fun p => p.2.2 != saved.2.2) }).writeDir c g.headboxDie saved.2.2 0
  | _, _ => some s

/-- A group of a grid retires; the last one closes the grid (R430). -/
def Grid.retireOne (g : Grid) : Grid :=
  { g with
    retired := g.retired + 1
    state := if g.retired + 1 = g.x * g.y * g.z ∧ g.state ≠ .abandoned then .closing else g.state }

/-- A group is gone: its grid counts it. -/
def State.dropGroup (s : State) (g : Group) : State :=
  let s := { s with groups := s.groups.filter (fun x => x.uid != g.uid) }
  let s := (g.places.map Place.core).foldl State.grantOnCore s
  let s := s.releasePressed g.uid
  match s.grid? g.grid with
  | none => s
  | some grid => s.setGrid grid.retireOne

/-- An Evicted group that every warp of was to end (R405) retires, once its directory entry can be freed. -/
def State.endDoomed (s : State) (gid : Nat) : State :=
  match s.group? gid with
  | none => s
  | some g =>
    if g.doomed && g.state == .evicted then (s.freeRecord g).elim s (fun s => (s.dropGroup g).setDbgst g.part 1) else s

/-- PHASE_RECORD_COMPLETE. -/
def execPhaseRecordComplete (gid : Nat) (s : State) : Host.Outcome State Fault Refusal :=
  match s.group? gid with
  | none => .next s
  | some g =>
    match s.ctxOf g, s.grid? g.grid, g.saved with
    | some c, some grid, some saved =>
      if s.recordReady g = false then .next s
      else if deviceBytes < c.savebase.toNat + saved.1 + saved.2.1 then .fault .noSuchPhysicalAddress
      else
        let ws := orderWarps (s.warpsOf g)
        let n := 128 + g.span * grid.kd.sectionBytes + ws.foldl (fun a w => a + w.partBytes) 0
        let at_ := ws.any (fun w => w.frags.any (s.metAtSave g w)) || g.pressureGone
        match s.writeRecord c g saved (s.phaseRecord g grid) n with
        | none => .next s
        | some s =>
          let s := s.leaveCores g { g with
            state := .evicted
            evct := satInc g.evct
            hungSince := none
            hungRaised := false
            unplacedAt := s.ticks
            savedWarps := ws.map (fun w => { role := w.role, index := w.index, pos := w.pos, budget := w.budget, pending := w.pending,
                                             fenced := w.fenced })
            savedPool := g.places.map Place.granules
            savedWaits := ws.flatMap (fun w => w.frags.map (fun f => f.wait.inner)) }
          .next (if g.doomed then s.endDoomed gid else if at_ then s.makeResumable gid else s)
    | _, _, _ => .next s

/-- EVTH_AFTER_EVICTION (R385 code 6): one EVTH after E, a group evicted on a remote load becomes resumable. -/
def execEvthAfterEviction (gid : Nat) (s : State) : Host.Outcome State Fault Refusal :=
  match s.group? gid with
  | none => .next s
  | some g =>
    let due := g.state == .evicted && g.savedWaits.any (fun w => match w with | .remote _ false _ _ => true | _ => false) &&
      decide (g.evictedAt + 2700 * ((s.ctxOf g).map (fun c => c.evth.toNat)).getD 0 ≤ s.ticks)
    .next (if due then s.makeResumable gid else s)

/-! ### Standing requests (R380, R387) -/

/-- A pre-emption request for a resident group, unless one of that cause stands. A group that is Waiting meets it in time. -/
def State.requestPreempt (s : State) (gid : Nat) (cause : Option Nat) : State :=
  match s.group? gid with
  | none => s
  | some g =>
    if g.preempt.any (fun p => p.cause == cause && !p.met) then s
    else s.setGroup { g with preempt := g.preempt ++ [{ since := s.ticks, cause := cause, late := g.state == .waiting, met := false }] }

/-- PREEMPT_LATE, once for a request. -/
def execPreemptLate (gid : Nat) (s : State) : Host.Outcome State Fault Refusal :=
  match s.group? gid with
  | none => .next s
  | some g =>
    let pdl := ((s.ctxOf g).map (fun c => c.pdl.toNat)).getD 0
    let due := fun (p : Preempt) => !p.late && (g.state == .placed || g.state == .running || g.state == .waiting) && s.olderThan p.since pdl
    match g.preempt.findIdx? due with
    | none => .next s
    | some n =>
      .next ((s.setGroup { g with preempt := g.preempt.mapIdx (fun k p => if k = n then { p with late := true } else p) }).groupEvent g 1)

/-- PREEMPTION_WITHDRAW: the driver withdraws the requests that stand. -/
def execPreemptionWithdraw (gid : Nat) (s : State) : Host.Outcome State Fault Refusal :=
  match s.group? gid with
  | none => .next s
  | some g =>
    .next (if g.state = .evicted ∨ g.state = .evicting ∨ s.driverReaches = false then s else s.setGroup { g with preempt := [] })

/-- A wait with code 1, 2, 7 or 8, which nothing of the device's own will meet. -/
def Wait.idle : Wait → Bool
  | .barrier .. => true
  | .member _ => true
  | .queue .. => true
  | .held => true
  | .behind => true
  | _ => false

/-- Whether a group is hung (R387). -/
def State.isHung (s : State) (g : Group) : Bool :=
  g.pend.all (fun n => n == 0) && !s.copies.any (fun c => c.group == g.uid) && !s.engines.any (fun o => o.group == g.uid) &&
    (match g.state with
      | .waiting =>
        (s.warpsOf g).all (fun w => w.frags.all (fun f => f.wait.idle || (w.role == .epilogue && f.record.isNone)))
      | .evicted => g.resumable.isNone && g.savedWaits.all (fun w => w.idle || w == .none)
      | _ => false)

/-- HUNG, once from each time that the group becomes Waiting, and once in each eviction (log entry 111). -/
def execHung (gid : Nat) (s : State) : Host.Outcome State Fault Refusal :=
  match s.group? gid with
  | none => .next s
  | some g =>
    match g.hungSince with
    | none => .next s
    | some t =>
      let due := !g.hungRaised && s.isHung g && s.olderThan t (((s.ctxOf g).map (fun c => c.pdl.toNat)).getD 0)
      .next (if due then (s.setGroup { g with hungRaised := true }).groupEvent g 2 else s)

end Sys2Proof.Machine
end

