-- ==== Sys2Proof/Machine/Arbiter.lean ====
section
/-! DEFINITION. The register arbiter (R128 to R130) and promotion of fragments (R110). -/

namespace Sys2Proof.Machine

/-! ### Promotion (R110) -/

/-- A fragment that stayed ready for 64 clocks is promoted, in the order of promotion. -/
def State.promote (s : State) (r : FragRef) : State :=
  match s.warp? r.warp with
  | none => s
  | some w =>
    match w.frag? r.frag with
    | none => s
    | some f =>
      if f.readyFor < 64 ∨ f.promoted.isSome = true then s
      else { s.setWarp (w.setFrag { f with promoted := some s.fresh }) with fresh := s.fresh + 1 }

/-- FRAGMENT_PROMOTION. -/
def execFragmentPromotion (warp frag : Nat) (s : State) : Host.Outcome State Fault Refusal :=
  .next (s.promote { warp := warp, frag := frag })

/-- Every fragment whose count is full is promoted, before the ports of the next clock choose. -/
def State.promoteAll (s : State) : State :=
  (s.warps.flatMap (fun w => (w.frags.filter (fun f => decide (64 ≤ f.readyFor))).map (fun f =>
    ({ warp := w.uid, frag := f.id } : FragRef)))).foldl State.promote s

/-! ### The register arbiter (R128) -/

/-- The warps and groups that live on a core. -/
def State.warpsOn (s : State) (core : Nat) : List Warp := s.warps.filter (fun w => w.core == core)
def State.groupsOn (s : State) (core : Nat) : List Group := s.groups.filter (fun g => g.places.any (fun p => p.core == core))

/-- The pools of a core. -/
def State.poolsOn (s : State) (core : Nat) : List (Group × Nat) :=
  (s.groupsOn core).flatMap (fun g => ((List.range g.span).filter (fun p => g.coreAt p == core)).map (fun p => (g, p)))

/-- The claims that wait on a core. -/
def State.claimsAt (s : State) (core : Nat) : List Claim := (s.poolsOn core).flatMap (fun x => s.claimsOn x.1 x.2)

/-- Whether the oldest claim on some pool of a core cannot be granted. -/
def State.ungrantable (s : State) (core : Nat) : Bool :=
  (s.poolsOn core).any (fun x =>
    match s.claimsOn x.1 x.2 with
    | c :: _ => s.freeGranules core == 0 && decide (s.unreserved x.1 x.2 < c.steps)
    | [] => false)

/-- Whether the arbiter of a core acts: every warp is at a blocking point. -/
def State.arbiterActs (s : State) (core : Nat) : Bool :=
  (s.warpsOn core).all (fun w => w.started && w.stuck) && s.ungrantable core

/-- Tagged registers that hold a value on a core, oldest tag first: warp and slot. -/
def State.liveTags (s : State) (core : Nat) : List (Nat × Nat) :=
  (sortBy (fun x => x.1) ((s.warpsOn core).flatMap (fun w =>
    (w.slotsIn (fun x => x.state == .live)).map (fun n => ((w.slot? n).tagSeq, w.uid, n))))).map Prod.snd

/-- One drop: an implicit claim of the warp is met once its registers fit; a warp with an explicit claim goes on waiting; any other lowers its
budget to its need. -/
def State.arbiterDrop (s : State) (uid n : Nat) : State :=
  match s.warp? uid with
  | none => s
  | some w =>
    let w := w.dropSlot n
    let claims := sortBy Claim.stamp (w.frags.filterMap (Frag.claim? w))
    match claims.find? (fun c => c.dest.isNone) with
    | some c =>
      match w.frag? c.ref.frag with
      | some f => s.setWarp (if w.heldWith c.names ≤ 8 * w.budget then w.setFrag (f.roomMade c.names) else w)
      | none => s
    | none =>
      let need := max 1 ((w.heldWith [] + 7) / 8)
      if claims.isEmpty = true ∧ need < w.budget then (s.setWarp { w with budget := need }).grantOnCore w.core else s.setWarp w

/-- Drops in order until some claim is granted; whether one was. -/
def arbiterDrops : List (Nat × Nat) → State → Nat → State × Bool
  | [], s, _ => (s, false)
  | x :: rest, s, core =>
    let n := (s.claimsAt core).length
    let s := s.arbiterDrop x.1 x.2
    if (s.claimsAt core).length < n then (s, true) else arbiterDrops rest s core

/-- The largest claim of a warp. -/
def Warp.largestClaim (w : Warp) : Nat := (w.frags.filterMap (Frag.claim? w)).foldl (fun a c => max a c.steps) 0

/-- The warp that takes `BUDGETDL`: the largest claim, the lowest slot among equals. -/
def budgetVictim (ws : List Warp) : Option Warp :=
  ws.foldl (fun (b : Option Warp) w =>
    match b with
    | none => some w
    | some b =>
      if b.largestClaim < w.largestClaim ∨ (w.largestClaim = b.largestClaim ∧ w.slot < b.slot) then some w else some b) none

/-- `BUDGETDL` in every fragment of a warp that waits on a claim. -/
def State.budgetDeadlock (s : State) (w : Warp) : State :=
  ((w.frags.filterMap (Frag.claim? w)).foldl (fun s c => s.raise c.ref { code := .budgetdl, detail := BitVec.ofNat 32 c.steps, rpl := c.rpl }) s).grantOnCore
    w.core

/-- REGISTER_ARBITER. A single group takes `BUDGETDL` only when its warps on every core wait on claims (R128 step 3). -/
def execRegisterArbiter (core : Nat) (s : State) : Host.Outcome State Fault Refusal :=
  if s.arbiterActs core = false then .next s
  else match arbiterDrops (s.liveTags core) s core with
    | (s, true) => .next s
    | (s, false) =>
      match (sortBy Group.placedAt (s.groupsOn core)).reverse with
      | g :: _ :: _ => .next (s.beginEviction g.uid)
      | gs =>
        if gs.all (fun g => (s.warpsOf g).all (fun w => decide (0 < w.largestClaim))) then
          match budgetVictim (s.warpsOn core) with
          | some w => .next (s.budgetDeadlock w)
          | none => .next s
        else .next s

end Sys2Proof.Machine
end

