-- ==== Sys2Proof/Machine/Queue.lean ====
section
/-! DEFINITION. Class 0xA, queues (R332 to R341). -/

namespace Sys2Proof.Machine

/-! ### Checks (R334) -/

/-- `QUEUE` with its cause, for the whole fragment (R333). -/
def queueFault (cause q : Nat) : Stop := wholeTrap .queue cause q

/-- The declared CFG, image base and scratchpad of a queue on the issuer's core. -/
def Issue.queueCfg (I : Issue) (q : Nat) : Nat := I.grid.kd.queueCfg q
def Issue.queueBase (I : Issue) (q : Nat) : Nat := I.grid.kd.queueBase q
def Issue.queueSpad (I : Issue) : List Host.Cell := I.st.spadOf I.group.uid I.warp.pos
def Issue.queueRing (I : Issue) (q : Nat) : Ring := ringAt I.queueSpad (I.queueBase q)

/-- Causes 2, 1 and 7; `ask` picks the role masks that the instruction needs one of (bit 8: PROD, bit 11: CONS). -/
def Issue.queueCheck (I : Issue) (q : Nat) (ask : List Nat) : Option Stop :=
  let cfg := I.queueCfg q
  if cfg = 0 then some (queueFault 2 q)
  else if ask.all (fun b => cfg.testBit (b + roleNat I.warp.role) == false) then some (queueFault 1 q)
  else if ringMalformed I.queueSpad (I.queueBase q) cfg then some (queueFault 7 q)
  else none

/-- Cause 5: a handle whose offset lies outside the scratchpad. -/
def Issue.badHandle (I : Issue) (h : Word) : Bool := decide (I.grid.kd.sp * 65536 ≤ field h.toNat 0 17 * 64)

/-! ### Taking a slot, or waiting (R335, R337, R340) -/

/-- The operation on its slot when that is ready; otherwise the issuer joins its line, unless the wait is orphaned. -/
def Issue.queueTake (I : Issue) (q : Nat) (op : QueueOp) : Except Stop Done :=
  let depth := queueDepth (I.queueCfg q)
  if op.ready (I.queueRing q) depth then
    let (m, regs) := op.act I.queueSpad (I.queueBase q) depth
    .ok { st := (I.st.setWarp (regs I.warp)).writeSpad I.group.uid I.warp.pos m }
  else
    let prod := match op with | .pop _ => false | _ => true
    if I.st.orphaned I.group.uid I.warp.pos q prod then .error (queueFault 6 q)
    else .error (.wait { I.st with fresh := I.st.fresh + 1 } (.queue q op I.st.fresh))

/-- A release at the group's scope (R270), then the body. -/
def Issue.afterRelease (I : Issue) (body : Issue → Except Stop Done) : Except Stop Done :=
  match I.release I.st I.group.scope with
  | .error e => .error e
  | .ok s => body { I.at s with view := I.view }

/-- `QPUSH` (R335). -/
def execQpush (n : BitVec 4) (a : BitVec 6) (s : State) : Host.Outcome State Fault Refusal :=
  runInstr (.qpush n a) (fun I =>
    let h := I.view.getS a.toNat
    match I.queueCheck n.toNat [8] with
    | some e => .error e
    | none =>
      if I.badHandle h then .error (queueFault 5 n.toNat)
      else I.afterRelease (fun I => I.queueTake n.toNat (.push h))) s

/-- `QPOP` (R337). -/
def execQpop (n : BitVec 4) (d : BitVec 6) (s : State) : Host.Outcome State Fault Refusal :=
  runInstr (.qpop n d) (fun I =>
    match I.queueCheck n.toNat [11] with
    | some e => .error e
    | none => I.queueTake n.toNat (.pop d.toNat)) s

/-- `QTRY` (R337). -/
def execQtry (n : BitVec 4) (d : BitVec 6) (s : State) : Host.Outcome State Fault Refusal :=
  runInstr (.qtry n d) (fun I =>
    match I.queueCheck n.toNat [11] with
    | some e => .error e
    | none =>
      if (QueueOp.pop d.toNat).ready (I.queueRing n.toNat) (queueDepth (I.queueCfg n.toNat)) then
        I.queueTake n.toNat (.pop d.toNat)
      else .ok { st := I.put ((I.warp.setS d.toNat 0).setS (d.toNat + 1) 0xFFFFFFFF) }) s

/-- `QRSV` (R335). -/
def execQrsv (n : BitVec 4) (d : BitVec 6) (s : State) : Host.Outcome State Fault Refusal :=
  runInstr (.qrsv n d) (fun I =>
    match I.queueCheck n.toNat [8] with
    | some e => .error e
    | none => I.queueTake n.toNat (.reserve d.toNat)) s

/-- A slot named by an instruction moved from one state to another, and the queue settled. -/
def Issue.moveSlot (I : Issue) (q slot x : Nat) (m : List Host.Cell) : Except Stop Done :=
  let base := I.queueBase q
  .ok { st := I.st.writeSpad I.group.uid I.warp.pos (putRing m base ((ringAt m base).setSlot slot x)) }

/-- `QCMT` (R336). -/
def execQcmt (n : BitVec 4) (a : BitVec 6) (s : State) : Host.Outcome State Fault Refusal :=
  runInstr (.qcmt n a) (fun I =>
    let q := n.toNat
    let h := I.view.getS a.toNat
    let slot := (I.view.getS (a.toNat + 1)).toNat
    match I.queueCheck q [8] with
    | some e => .error e
    | none =>
      if queueDepth (I.queueCfg q) ≤ slot ∨ (I.queueRing q).slot slot ≠ 1 then .error (queueFault 3 q)
      else if I.badHandle h then .error (queueFault 5 q)
      else I.afterRelease (fun I => I.moveSlot q slot 2 (memSetNat I.queueSpad (slotAddr (I.queueBase q) slot) 4 h.toNat))) s

/-- `QREL` (R338). -/
def execQrel (n : BitVec 4) (a : BitVec 6) (s : State) : Host.Outcome State Fault Refusal :=
  runInstr (.qrel n a) (fun I =>
    let q := n.toNat
    let slot := (I.view.getS a.toNat).toNat
    match I.queueCheck q [11] with
    | some e => .error e
    | none =>
      if queueDepth (I.queueCfg q) ≤ slot ∨ (I.queueRing q).slot slot ≠ 3 then .error (queueFault 4 q)
      else I.afterRelease (fun I => I.moveSlot q slot 0 I.queueSpad)) s

/-- The slots of an instance in a state. -/
def Ring.count (r : Ring) (depth x : Nat) : Nat := ((List.range depth).filter (fun n => r.slot n == x)).length

/-- `QLEN` (R339). -/
def execQlen (n : BitVec 4) (d : BitVec 6) (s : State) : Host.Outcome State Fault Refusal :=
  runInstr (.qlen n d) (fun I =>
    let q := n.toNat
    match I.queueCheck q [8, 11] with
    | some e => .error e
    | none =>
      let r := I.queueRing q
      let depth := queueDepth (I.queueCfg q)
      .ok { st := I.put (I.warp.setS d.toNat (BitVec.ofNat 32
        (r.count depth 0 * 2 ^ 24 + r.count depth 1 * 2 ^ 16 + r.count depth 2 * 2 ^ 8 + r.count depth 3))) }) s

end Sys2Proof.Machine
end

