-- ==== Sys2Proof/Machine/Barrier.lean ====
section
/-! DEFINITION. Class 0xA, barriers (R357 to R363). -/

namespace Sys2Proof.Machine

/-! ### Checks (R358) -/

/-- `BARRIER` with its cause, for the whole fragment. -/
def barrierFault (cause b : Nat) : Stop := wholeTrap .barrier cause b

/-- Causes 1 and 7. -/
def Issue.barrierCheck (I : Issue) (b : Nat) : Option Stop :=
  if I.grid.kd.barrierCfg b = 0 then some (barrierFault 1 b)
  else if I.st.barMalformed I.group b then some (barrierFault 7 b)
  else none

/-- Cause 2. -/
def Issue.outsideRoles (I : Issue) (b : Nat) : Bool := !(I.group.roles.getD b 0).getLsbD (roleNat I.warp.role)

/-- The checks of an arriving instruction up to cause 4. -/
def Issue.arriveCheck (I : Issue) (b : Nat) : Option Stop :=
  match I.barrierCheck b with
  | some e => some e
  | none =>
    if I.outsideRoles b then some (barrierFault 2 b)
    else if I.group.isBroken b then some (barrierFault 4 b)
    else none

/-! ### Arriving (R354, R359) -/

/-- Whether some lane of the fragment has arrived already (cause 3). -/
def Issue.doubleArrival (I : Issue) (b : Nat) : Bool := I.frag.lanes &&& I.warp.la.getD b 0 != 0

/-- Bytes added, the arrival as a release at the group's scope (R270), and the completion test. A pending member waits for the
phase in progress to complete first. -/
def Issue.arriveAt (I : Issue) (b bytes : Nat) : Except Stop State :=
  match I.arriveCheck b with
  | some e => .error e
  | none =>
    if I.warp.pending.getLsbD b then .error (.wait I.st (.member b))
    else if I.doubleArrival b then .error (barrierFault 3 b)
    else match I.release I.st I.group.scope with
      | .error e => .error e
      | .ok s =>
        let s := if bytes = 0 then s else s.expectBytes I.group.uid b bytes
        .ok ((s.arrive I.ref.warp b I.frag.lanes).testBarrier I.group.uid b)

/-- `BARV`. -/
def execBarv (b : BitVec 4) (s : State) : Host.Outcome State Fault Refusal :=
  runInstr (.barv b) (fun I =>
    match I.arriveAt b.toNat 0 with
    | .error e => .error e
    | .ok s => .ok { st := s }) s

/-- `BARX`: with NA the bytes alone, and no arrival. Either form is a release at the group's scope (R270). -/
def execBarx (b : BitVec 4) (a : BitVec 6) (na : BitVec 1) (s : State) : Host.Outcome State Fault Refusal :=
  runInstr (.barx b a na) (fun I =>
    let n := (I.view.getS a.toNat).toNat
    if na = 1#1 then
      match I.barrierCheck b.toNat with
      | some e => .error e
      | none =>
        if I.group.isBroken b.toNat then .error (barrierFault 4 b.toNat)
        else match I.release I.st I.group.scope with
          | .error e => .error e
          | .ok s => .ok { st := (s.expectBytes I.group.uid b.toNat n).testBarrier I.group.uid b.toNat }
    else match I.arriveAt b.toNat n with
      | .error e => .error e
      | .ok s => .ok { st := s }) s

/-! ### Waiting (R360, R363) -/

/-- The wait of `BARW` with OWN = 1, and of `BSYNC`, for the phase of WPAR; `bs` is WPAR as it was when a `BSYNC` arrived. -/
def Issue.ownWait (I : Issue) (b : Nat) (wpar : BitVec 16) (bs : Bool) : Except Stop Done :=
  let p := wpar.getLsbD b
  if (I.st.barOf I.group.uid b).pseq.testBit 0 ≠ p then .ok { st := I.put (I.warp.setPar b (!p)) }
  else
    .error (.wait (I.put (I.warp.setFrag { I.frag with arrived := if bs then some wpar else none })) (.barrier b p true bs))

/-- `BARW`. -/
def execBarw (b : BitVec 4) (a : BitVec 6) (own : BitVec 1) (s : State) : Host.Outcome State Fault Refusal :=
  runInstr (.barw b a own) (fun I =>
    match I.barrierCheck b.toNat with
    | some e => .error e
    | none =>
      if I.group.isBroken b.toNat then .error (barrierFault 4 b.toNat)
      else if own = 1#1 then I.ownWait b.toNat I.warp.wpar false
      else
        let p := (I.view.getS a.toNat).getLsbD 0
        if (I.st.barOf I.group.uid b.toNat).pseq.testBit 0 ≠ p then .ok { st := I.st }
        else .error (.wait I.st (.barrier b.toNat p false false))) s

/-- `BSYNC`: it waits for the phase of WPAR as it was before its arrival, and an arrival that an earlier issue recorded is not made
again (R363). An overrun that its arrival finds faults it with the other waiters (R355). -/
def execBsync (b : BitVec 4) (s : State) : Host.Outcome State Fault Refusal :=
  runInstr (.bsync b) (fun I =>
    match I.frag.arrived with
    | some wpar =>
      match I.arriveCheck b.toNat with
      | some e => .error e
      | none => I.ownWait b.toNat wpar true
    | none =>
      match I.arriveAt b.toNat 0 with
      | .error e => .error e
      | .ok s =>
        let J := I.at s
        if J.group.isBroken b.toNat then
          .error (.trapAt s { code := .barrier, detail := 4, aux := BitVec.ofNat 32 b.toNat })
        else J.ownWait b.toNat I.warp.wpar true) s

/-! ### Reading and initialising (R361, R362) -/

/-- `BPHASE`. -/
def execBphase (b : BitVec 4) (d : BitVec 6) (s : State) : Host.Outcome State Fault Refusal :=
  runInstr (.bphase b d) (fun I =>
    match I.barrierCheck b.toNat with
    | some e => .error e
    | none =>
      let arrived := if I.warp.arrivedAt b.toNat then 2 else 0
      let par := if I.warp.wpar.getLsbD b.toNat then 1 else 0
      .ok { st := I.put ((I.warp.setS d.toNat (BitVec.ofNat 32 (I.st.barOf I.group.uid b.toNat).pseq)).setS (d.toNat + 1)
              (BitVec.ofNat 32 (arrived + par))) }) s

/-- Whether a barrier is busy (R362). A copy that is not Complete is one that the state still holds. -/
def State.barBusy (s : State) (gid b : Nat) : Bool :=
  let x := s.barOf gid b
  s.warps.any (fun w => w.group == gid && w.la.getD b 0 != 0) || x.exp != 0 || x.rcv != 0 || !(s.barWaiters gid b).isEmpty ||
    s.copies.any (fun c => c.group == gid && c.barrier == b)

/-- A barrier with new roles (R362). -/
def State.initBarrier (s : State) (gid b : Nat) (mask : BitVec 3) : State :=
  match s.group? gid with
  | none => s
  | some g =>
    let members := (s.warps.filter (fun w => w.group == gid && mask.getLsbD (roleNat w.role))).length
    let pseq := (s.barOf gid b).pseq
    let s := s.setGroup { g.setBroken b false with roles := g.roles.setIfInBounds b mask }
    let s := s.setBar gid b { cfg := 0x80 + mask.toNat, pseq := pseq, mem := members, join := 0, arr := 0, exp := 0, rcv := 0 }
    s.mapWarps gid (fun w => ((w.setLa b 0).setPar b (pseq.testBit 0)).setPending b false)

/-- `BINIT`. -/
def execBinit (b : BitVec 4) (a : BitVec 6) (s : State) : Host.Outcome State Fault Refusal :=
  runInstr (.binit b a) (fun I =>
    let x := I.view.getS a.toNat
    match I.barrierCheck b.toNat with
    | some e => .error e
    | none =>
      if I.group.isBroken b.toNat = false ∧ I.st.barBusy I.group.uid b.toNat = true then .error (barrierFault 5 b.toNat)
      else if x = 0 ∨ 8 ≤ x.toNat then .error (barrierFault 6 b.toNat)
      else .ok { st := (I.st.initBarrier I.group.uid b.toNat (x.setWidth 3)).testBarrier I.group.uid b.toNat }) s

end Sys2Proof.Machine
end

