-- ==== Sys2Proof/Machine/ScalarMem.lean ====
section
/-! DEFINITION. Class 0x1: special registers, records and scalar access to global memory (R156, R157, R213 to R217, R246, R264,
R432). -/

namespace Sys2Proof.Machine

/-! ### Access to global memory, shared by scalar and vector forms -/

/-- What an access does at a line's home (R254, R267): loads promote with ORD acquire. -/
def Issue.visitLoad (I : Issue) : Visit :=
  { core := I.warp.core, scope := I.h.m.scope, promotes := decide (I.h.m.ord = 1) }

/-- A store does not promote and waits in its buffer; an atomic always promotes. -/
def Issue.visitStore (I : Issue) : Visit := { core := I.warp.core, scope := I.h.m.scope, promotes := false, buffered := true }
def Issue.visitAtomic (I : Issue) : Visit := { core := I.warp.core, scope := I.h.m.scope, promotes := true }

/-- Whether the access releases (R259). -/
def Issue.releases (I : Issue) : Bool := decide (2 ≤ I.h.m.ord)

/-- The scope at which a write of some lanes is a release: the widest of its own and of the fences that those lanes have issued
(R260). -/
def Issue.releaseScope (I : Issue) (lanes : Word) : Option Nat :=
  let own := if I.releases then [I.h.m.scope] else []
  (own ++ (List.range 5).filter (fun n => I.warp.fenced.getD n 0 &&& lanes != 0)).foldl (fun a n => some (max (a.getD 0) n)) none

/-- The lanes of an access of `z` bytes through a record. -/
def Issue.resolve (I : Issue) (n : BitVec 4) (z : Nat) (write : Bool) (lanes : List (Nat × Nat)) : List LaneState :=
  I.st.laneStates I.agent.master I.ctx (Buf.of (I.view.getD n.toNat)) z write lanes

/-- The lanes whose access a scalar access is, and a lane's own (R250). -/
def Issue.allLanes (I : Issue) (_ : Nat) : Word := I.active
def Issue.ownLane (_ : Issue) (L : Nat) : Word := maskOf (fun k => k == L)

/-- The bytes of performing lanes stored, in ascending lane order (R221, R256). `who` gives the lanes whose access it is. -/
def Issue.storeLanes (I : Issue) (s : State) (z : Nat) (ls : List LaneState) (who : Nat → Word) (val : Nat → Nat) : State :=
  (performLanes ls).foldl (fun s p =>
    s.storeGlobal (I.agent.sender I.st.fresh (who p.1) p.2.1) I.h.m.scope (I.releaseScope (who p.1)) p.2.2 (bytesLE z (val p.1)))
    { s with fresh := s.fresh + 1 }

/-- A store of lanes: settled, then released when it is a release (R259), then performed. -/
def Issue.store (I : Issue) (z : Nat) (ls : List LaneState) (who : Nat → Word) (val : Nat → Nat) : Except Stop State :=
  match I.st.settle I.agent ls I.visitStore true false with
  | .error e => .error e
  | .ok s =>
    match (if I.releases then I.release s I.h.m.scope else .ok s) with
    | .error e => .error (e.noting I.ref (laneBytes ls))
    | .ok s => .ok (I.storeLanes s z ls who val)

/-! ### Atomics (R216, R217, R227, R267, R268, R446) -/

/-- The new value of one atomic request. -/
def AtomReq.value (r : AtomReq) (old : Nat) : Nat :=
  match r.cmp with
  | some c => if old = c.toNat then r.b.toNat else old
  | none => atomicValue r.op r.size old r.b.toNat

/-- One atomic performs at its home, with its old value; one that releases sets the tag of its line (R268). -/
def State.atomicAt (s : State) (core order : Nat) (rel : Option Nat) (r : AtomReq) : State × Nat :=
  let old := memNat s.mem r.key r.size
  (s.writeHome core order r.key (bytesLE r.size (r.value old)) rel, old)

/-- An atomic takes the next store number of its core. -/
def State.takeStore (s : State) (core : Nat) : State := { s with sbufSeq := s.sbufSeq.setIfInBounds core (s.storeNumber core + 1) }

/-- The requests of one instruction, in ascending lane order: those homed on the issuer's die perform, and the others are sent as
messages of class 1 (R15, R273). -/
def Issue.performAtomics (I : Issue) (s : State) (who : Nat → Word) (reqs : List AtomReq) : State × List (Nat × Nat) :=
  let core := I.warp.core
  let order := s.storeNumber core
  reqs.foldl (fun (acc : State × List (Nat × Nat)) r =>
    let rel := I.releaseScope (who r.lane)
    if away (dieOf core) r.key then
      (acc.1.send 1 (I.agent.sender I.st.fresh (who r.lane) r.va) order r.key [] (.atomic I.ref I.h.m.scope r rel), acc.2)
    else
      let (s, old) := acc.1.atomicAt core order rel r
      (s, acc.2 ++ [(r.lane, old)])) ({ s.takeStore core with fresh := s.fresh + 1 }, [])

/-- The scope of the release that an atomic makes, core scope when none. -/
def Issue.atomicScope (I : Issue) (who : Nat → Word) (reqs : List AtomReq) : Nat :=
  reqs.foldl (fun a r => max a ((I.releaseScope (who r.lane)).getD 0)) 0

/-- The core's older stores to the bytes of requests perform before the atomic (R255); the store number below which it waits for one
that cannot yet. -/
def State.atomicAfter (s : State) (core : Nat) (reqs : List AtomReq) : Except Stop State :=
  let meets := fun (e : StoreEntry) => e.core == core && reqs.any (fun r => rangesMeet e.key e.data.length r.key r.size)
  let s := s.performWhere meets
  match (s.sbuf.filter meets).getLast? with
  | some e => .error (.wait s (.acks false (e.seq + 1)))
  | none => .ok s

/-- The old values written where the instruction puts them. -/
def AtomDest.write (d : AtomDest) (w : Warp) (olds : List (Nat × Nat)) : Warp :=
  match d with
  | .nowhere => w
  | .scalar n wide =>
    let x := laneNat olds 0
    if wide then w.setPair n (BitVec.ofNat 64 x) else w.setS n (BitVec.ofNat 32 x)
  | .vector vd wide zero =>
    let m := maskOf (fun L => olds.any (fun o => o.1 == L)) ||| zero
    let w := w.writeV vd m (perLane (fun L => BitVec.ofNat 32 (laneNat olds L)))
    if wide then w.writeV (vd + 1) m (perLane (fun L => BitVec.ofNat 32 (laneNat olds L / 2 ^ 32))) else w

/-- Runs the atomics of an instruction: at the homes on its own die at once, and otherwise as a remote request for whose replies the
fragment waits (R445, R446). -/
def Issue.atomics (I : Issue) (ls : List LaneState) (size op : Nat) (who : Nat → Word) (b : Nat → Nat) (cmp : Nat → Option Nat)
    (dest : AtomDest) : Except Stop Done :=
  match I.st.settle I.agent ls I.visitAtomic true false with
  | .error e => .error e
  | .ok s =>
    let reqs := (performLanes ls).map (fun p =>
      { lane := p.1, key := p.2.2, size := size, op := op, b := BitVec.ofNat 64 (b p.1),
        cmp := (cmp p.1).map (BitVec.ofNat 64), va := p.2.1 : AtomReq })
    match I.release s (I.atomicScope who reqs) with
    | .error e => .error (e.noting I.ref (laneBytes ls))
    | .ok s =>
      match s.atomicAfter I.warp.core reqs with
      | .error e => .error (e.noting I.ref (laneBytes ls))
      | .ok s =>
        let (s, olds) := I.performAtomics s who reqs
        if anyAway (dieOf I.warp.core) (reqs.map AtomReq.key) then
          let r : RemoteReq :=
            { frag := I.ref, core := I.warp.core, group := I.group.uid, grid := I.grid.uid, from_ := I.sender, reqs := reqs,
              dest := dest, olds := olds, refused := 0 }
          .error (.wait ({ s with remotes := s.remotes ++ [r] }.noteBytes I.ref (laneBytes ls))
            (.remote s.ticks true false (awayLanes (dieOf I.warp.core) ls)))
        else .ok { st := s.setWarp (dest.write (I.at s).warp olds) }

/-! ### Special registers (R115, R156, R157) -/

/-- The value of a special register; none for a number outside R115. -/
def Issue.special (I : Issue) (n : Nat) : Option Nat :=
  let w := I.warp
  let epi := fun (x : Nat) => if w.role = .epilogue then x else 0
  match n with
  | 0 => some (roleNat w.role)
  | 1 => some w.slot
  | 2 => some w.index
  | 3 => some I.group.gx.toNat
  | 4 => some I.group.gy.toNat
  | 5 => some I.group.gz.toNat
  | 6 => some I.grid.x
  | 7 => some I.grid.y
  | 8 => some I.grid.z
  | 9 => some w.core
  | 10 => some (quireOf w.core)
  | 11 => some (dieOf w.core)
  | 12 => some w.pos
  | 13 => some I.group.span
  | 14 => some I.ctx.ctxid.toNat
  | 15 => some (epi w.budget)
  | 16 => some (epi w.fpflags.toNat)
  | 17 => some (epi w.srctr.toNat)
  | 18 => some (epi (I.frag.record.getD 0))
  | 19 => some (modeNat w.mode)
  | _ => none

/-- `SGET` (R156). -/
def execSget (d : BitVec 6) (n : BitVec 16) (s : State) : Host.Outcome State Fault Refusal :=
  runInstr (.sget d n) (fun I =>
    match I.special n.toNat with
    | some x => .ok { st := I.put (I.warp.setS d.toNat (BitVec.ofNat 32 x)) }
    | none => .error (wholeTrap .ud ((Sys2Proof.encode (.sget d n)).getD 0).toNat 0)) s

/-- `SSETX` (R157). -/
def execSsetx (a : BitVec 6) (n : BitVec 16) (s : State) : Host.Outcome State Fault Refusal :=
  runInstr (.ssetx a n) (fun I =>
    let x := I.view.getS a.toNat
    if I.warp.role ≠ .epilogue then .ok { st := I.st }
    else if n = 16#16 then .ok { st := I.put { I.warp with fpflags := x.setWidth 5 } }
    else .ok { st := I.put { I.warp with srctr := x } }) s

/-! ### Buffer records (R209, R214) -/

/-- `BOUNDS` for a malformed record (R225). -/
def malformedRecord : Stop := wholeTrap .bounds 0xFFFFFFFF 0

/-- A record written, unless it is malformed (R209). -/
def Issue.putRecord (I : Issue) (n : BitVec 4) (r : BitVec 128) : Except Stop Done :=
  if bufMalformed r then .error malformedRecord else .ok { st := I.put (I.warp.setD n.toNat r) }

/-- Four scalars as a record. -/
def Issue.quad (I : Issue) (a : BitVec 6) : BitVec 128 := I.view.getPair (a.toNat + 2) ++ I.view.getPair a.toNat

/-- `DLOAD`: 16 bytes read through a record. -/
def execDload (m : BitVec 4) (i : BitVec 6) (n : BitVec 4) (s : State) : Host.Outcome State Fault Refusal :=
  runInstr (.dload m i n) (fun I =>
    let ls := I.resolve m 16 false [(0, (I.view.getS i.toNat).toNat)]
    match I.st.settle I.agent ls { core := I.warp.core, scope := 0, promotes := false } false true with
    | .error e => .error e.whole
    | .ok s => (I.at s).putRecord n (BitVec.ofNat 128 (laneNat (s.loadLanes I.agent 16 ls) 0))) s

def execDmake (a : BitVec 6) (n : BitVec 4) (s : State) : Host.Outcome State Fault Refusal :=
  runInstr (.dmake a n) (fun I => I.putRecord n (I.quad a)) s

/-- The record with one field changed (R214); none when the value does not fit its field. -/
def Buf.setField (b : Buf) (op : Nat) (x : Word) (p : Dword) : Option Buf :=
  let v := x.toNat
  match op with
  | 0 => if p.toNat < 2 ^ 57 then some { b with base := p.toNat } else none
  | 1 => some { b with ext := v }
  | 2 => if v < 2 ^ 24 then some { b with str := v } else none
  | 3 => if v ≤ 5 then some { b with esz := v } else none
  | 4 => if v ≤ 3 then some { b with swz := v } else none
  | 5 => if v < 8 then some { b with clmp := x.getLsbD 2, imm := x.getLsbD 1, ro := x.getLsbD 0 } else none
  | _ => if b.swz = 3 then none else some { b with base := (b.base + v * b.stride) % 2 ^ 57, ext := b.ext - v }

/-- `DSET`. -/
def execDset (a : BitVec 6) (n : BitVec 4) (o : BitVec 3) (s : State) : Host.Outcome State Fault Refusal :=
  runInstr (.dset a n o) (fun I =>
    let b := Buf.of (I.view.getD n.toNat)
    let x := I.view.getS a.toNat
    if o = 6#3 ∧ b.swz ≠ 3 ∧ b.ext < x.toNat then .error (wholeTrap .bounds x.toNat 0)
    else match b.setField o.toNat x (I.view.getPair a.toNat) with
      | none => .error malformedRecord
      | some b => I.putRecord n b.word) s

def execDget (d : BitVec 6) (n : BitVec 4) (s : State) : Host.Outcome State Fault Refusal :=
  runInstr (.dget d n) (fun I =>
    let r := I.view.getD n.toNat
    .ok { st := I.put ((I.warp.setPair d.toNat (r.extractLsb' 0 64)).setPair (d.toNat + 2) (r.extractLsb' 64 64)) }) s

/-! ### Scalar access to global memory (R215 to R217) -/

/-- A scalar, or a pair for size code 5, as a number. -/
def Issue.sized (I : Issue) (n : Nat) (z : BitVec 3) : Nat :=
  if z = 5#3 then (I.view.getPair n).toNat else (I.view.getS n).toNat

/-- `SLD`. -/
def execSld (d i : BitVec 6) (n : BitVec 4) (z : BitVec 3) (s : State) : Host.Outcome State Fault Refusal :=
  runInstr (.sld d i n z) (fun I =>
    let ls := I.resolve n (sizeBytes z.toNat) false [(0, (I.view.getS i.toNat).toNat)]
    match I.st.settle I.agent ls I.visitLoad false true with
    | .error e => .error e.whole
    | .ok s =>
      let x := laneNat (s.loadLanes I.agent (sizeBytes z.toNat) ls) 0
      let w := (I.at s).warp
      .ok { st := s.setWarp (if z = 5#3 then w.setPair d.toNat (BitVec.ofNat 64 x)
          else w.setS d.toNat (BitVec.ofNat 32 (extendSize z.toNat x))) }) s

/-- `SST`. -/
def execSst (a i : BitVec 6) (n : BitVec 4) (z : BitVec 3) (s : State) : Host.Outcome State Fault Refusal :=
  runInstr (.sst a i n z) (fun I =>
    let ls := I.resolve n (sizeBytes z.toNat) true [(0, (I.view.getS i.toNat).toNat)]
    match I.store (sizeBytes z.toNat) ls I.allLanes (fun _ => I.sized a.toNat z) with
    | .error e => .error e.whole
    | .ok s => .ok { st := s }) s

/-- A stop of the instruction as a whole, or its completion. -/
def wholeStop : Except Stop Done → Except Stop Done
  | .error e => .error e.whole
  | .ok d => .ok d

/-- `SATOM`. -/
def execSatom (a i : BitVec 6) (n : BitVec 4) (z o : BitVec 3) (s : State) : Host.Outcome State Fault Refusal :=
  runInstr (.satom a i n z o) (fun I =>
    let ls := I.resolve n (sizeBytes z.toNat) true [(0, (I.view.getS i.toNat).toNat)]
    wholeStop (I.atomics ls (sizeBytes z.toNat) (satomOp o.toNat) I.allLanes (fun _ => I.sized a.toNat z) (fun _ => none)
      (.scalar a.toNat (z == 5#3)))) s

/-- `SCAS`. -/
def execScas (a i : BitVec 6) (n : BitVec 4) (z : BitVec 3) (s : State) : Host.Outcome State Fault Refusal :=
  runInstr (.scas a i n z) (fun I =>
    let ls := I.resolve n (sizeBytes z.toNat) true [(0, (I.view.getS i.toNat).toNat)]
    let next := a.toNat + (if z = 5#3 then 2 else 1)
    wholeStop (I.atomics ls (sizeBytes z.toNat) 9 I.allLanes (fun _ => I.sized next z)
      (fun _ => some (I.sized a.toNat z)) (.scalar a.toNat (z == 5#3)))) s

/-! ### Pages, fences and arguments -/

/-- `PGREQ` (R246). -/
def execPgreq (a : BitVec 6) (w t : BitVec 1) (s : State) : Host.Outcome State Fault Refusal :=
  runInstr (.pgreq a w t) (fun I =>
    let addr := I.view.getPair a.toNat
    let va := vaMask addr.toNat
    let wr := w == 1#1
    let k : Access := if wr then .write else .read
    let stale := if wr then [(Access.write, va)] else []
    match I.st.translateOnly I.agent.master I.ctx k va, I.st.sendWalks I.agent k [va] with
      | .prot c, _ => .error (.trap { code := .prot, aux := BitVec.ofNat 32 c, addr := addr, stale := stale })
      | .stalled key, _ => .error (.wait I.st (.walk [key]))
      | .nowhere, _ => .error (.halt .noSuchPhysicalAddress)
      | _, .error e => .error e
      | .ok _, .ok s => .ok { st := s.forget I.agent.master stale }
      | .waits mig, .ok s =>
        let (s, js) := (s.forget I.agent.master stale).joinAll I.group.part I.group.ctx
          ((pageJoins [(0, va, mig)] I.warp.core wr).map (fun j => { j with expl := true, addr := addr, lanes := none }))
        if t = 1#1 then .error (.wait s (.futures js)) else .ok { st := s }) s

/-- The issuing lanes' later writes are releases of a scope (R260). -/
def Warp.fence (w : Warp) (scope : Nat) (lanes : Word) : Warp :=
  { w with fenced := w.fenced.setIfInBounds scope (w.fenced.getD scope 0 ||| lanes) }

/-- `FENCE` (R265): its release half waits for the accesses before it, of its own lanes at core scope and of its core at a wider one.
Any fence of a scope wider than core has the entries of the store buffer perform (R256). -/
def execFence (s : State) : Host.Outcome State Fault Refusal :=
  runInstr .fence (fun I =>
    if I.releases = false then .ok { st := if I.h.m.scope = 0 then I.st else I.st.drainCore I.warp.core }
    else match (if I.h.m.scope = 0 then I.releaseOwn I.st else I.release I.st I.h.m.scope) with
      | .error e => .error e
      | .ok s => .ok { st := s.setWarp ((I.at s).warp.fence I.h.m.scope I.active) }) s

/-- `SLDK` (R432): a word of the grid's argument block. -/
def execSldk (d : BitVec 6) (n : BitVec 16) (s : State) : Host.Outcome State Fault Refusal :=
  runInstr (.sldk d n) (fun I =>
    let off := (I.h.imm.getD (n.setWidth 32)).toNat
    if I.grid.kd.args < off + 4 then .error (wholeTrap .bounds off 0)
    else .ok { st := I.put (I.warp.setS d.toNat (BitVec.ofNat 32 (natLE ((I.grid.args.drop off).take 4)))) }) s

end Sys2Proof.Machine
end

