-- ==== Sys2Proof/Machine/Copy.lean ====
section
/-! DEFINITION. Class 0x9, the copy unit (R304 to R326). A copy reads and writes at one instant, when COPY_COMPLETE finds it
Running (log entry 26). -/

namespace Sys2Proof.Machine

/-! ### Shape (R308, R309) -/

/-- The shape pair. -/
structure CopyShape where
  high : Nat
  swz  : Nat
  row  : Nat
  rows : Nat
  soff : Nat
  deriving DecidableEq, Repr

def CopyShape.of (x : Dword) : CopyShape :=
  let n := x.toNat
  { high := field n 40 24, swz := field n 37 3, row := 16 * (field n 25 12 + 1), rows := field n 17 8 + 1, soff := 64 * field n 0 17 }

/-- The rows after which a swizzle repeats, 1 for none, and the bytes of which a row must be a multiple. -/
def swizzleRows (swz : Nat) : Nat := match swz with | 1 => 8 | 2 => 16 | 3 => 4 | _ => 1
def swizzleSpan (swz : Nat) : Nat := match swz with | 1 => 128 | 2 => 256 | 3 => 64 | _ => 16

/-- The scratchpad byte of 16-byte chunk `c` of row `r`. -/
def chunkAt (soff row swz r c : Nat) : Nat := soff + r * roundUp row 64 + (c ^^^ (r % swizzleRows swz)) * 16

/-- The bytes of a row in a scratchpad, and a row written. -/
def spadRow (m : List Host.Cell) (soff row swz r : Nat) : List Byte :=
  (List.range (row / 16)).flatMap (fun c => memReads m (chunkAt soff row swz r c) 16)

def putSpadRow (m : List Host.Cell) (soff row swz r : Nat) (bs : List Byte) : List Host.Cell :=
  (List.range (row / 16)).foldl (fun m c => memPut m (chunkAt soff row swz r c) ((bs.drop (16 * c)).take 16)) m

/-- The first byte beyond a scratchpad of `size` bytes that rows reach, if any (R316 cause 2). -/
def firstBeyond (base pitch n rows size : Nat) : Option Nat :=
  (List.range rows).findSome? (fun r => if size < base + r * pitch + n then some (max (base + r * pitch) size) else none)

/-! ### What an instruction asks for -/

/-- A copy as its scalars describe it (R307, R311 to R315). -/
structure CopyAsk where
  kind   : CopyKind
  shape  : CopyShape
  i0     : Nat
  pitch  : Nat
  extra0 : Nat
  extra1 : Nat
  /-- The numbers of its records, as far as they exist, and the records. -/
  recs   : List (Nat × Buf)
  load   : Bool
  /-- The span positions of the scratchpads. -/
  targets : List Nat
  idx    : List Nat
  deriving DecidableEq, Repr

/-- KIND, NREC and MASK of `CPYM` (R313). -/
def CopyAsk.mkind (a : CopyAsk) : Bool := a.extra0.testBit 11
def CopyAsk.nrec (a : CopyAsk) : Nat := field a.extra0 8 3
def CopyAsk.mask (a : CopyAsk) : Nat := field a.extra0 0 8

/-- The reductions of R314: the operation of R226 and its bytes; 15 stands for fadd64. -/
def reduction (code : Nat) : Nat × Nat :=
  match code with
  | 0 => (0, 4) | 1 => (0, 8) | 2 => (2, 4) | 3 => (3, 4) | 4 => (4, 4) | 5 => (5, 4) | 6 => (6, 4) | 7 => (7, 4)
  | 8 => (8, 4) | 9 => (12, 4) | 10 => (13, 4) | 11 => (14, 4) | _ => (15, 8)

/-- The new value of one contribution. -/
def reduced (code old b : Nat) : Nat :=
  let (op, z) := reduction code
  if op = 15 then (fpAdd binary64 0 false 0 old b).code else atomicValue op z old b

/-- The operands of a copy instruction, read once; one that goes on after a wait has the index list of its issue (R315). -/
def Issue.copyAsk (I : Issue) (kind : CopyKind) (n : BitVec 4) (c ss : BitVec 6) : CopyAsk :=
  let extra := match kind with | .cpyt => true | .cpym => true | .cpyr => true | .cpyg => true | _ => false
  let e0 := if extra then (I.view.getS (c.toNat + 2)).toNat else 0
  let e1 := if extra then (I.view.getS (c.toNat + 3)).toNat else 0
  let shape := CopyShape.of (I.view.getPair ss.toNat)
  let k1 := kind == .cpym && e0.testBit 11
  let count := if k1 then field e0 8 3 + 1 else if kind = .cpyt then 2 else 1
  let load := kind == .cpy || kind == .cpyg || kind == .cpyp || (kind == .cpym && !k1)
  let lo := field e0 0 17 * 64
  { kind := kind, shape := shape, i0 := (I.view.getS c.toNat).toNat, pitch := (I.view.getS (c.toNat + 1)).toNat, extra0 := e0,
    extra1 := e1, load := load
    recs := ((List.range count).filter (fun k => decide (n.toNat + k < 16))).map (fun k => (k, Buf.of (I.view.getD (n.toNat + k))))
    targets := if kind == .cpym && !k1 then (List.range I.group.span).filter (fun p => e0.testBit p) else [I.warp.pos]
    idx := if kind = .cpyg then
        (I.frag.latch.map Latch.index).getD
          ((List.range shape.rows).map (fun r => memNat (I.group.spadAt I.warp.pos) (lo + 4 * r) 4)) else [] }

/-- The index of element `c` of row `r` through record `k` (R310, R312, R315). -/
def CopyAsk.index (a : CopyAsk) (k r c : Nat) : Nat :=
  if a.kind = .cpyt ∧ k = 1 then a.extra0 + c * a.extra1 + r
  else a.i0 + (if a.kind = .cpyg then a.idx.getD r 0 else r) * a.pitch + c

/-! ### Checks at issue (R316) -/

/-- Cause 1. -/
def CopyAsk.reserved (a : CopyAsk) : Bool :=
  a.shape.high != 0 || decide (4 ≤ a.shape.swz) ||
    (match a.kind with
      | .cpym => decide (2 ^ 12 ≤ a.extra0) || a.extra1 != 0 || (if a.mkind then a.mask != 0 else a.nrec != 0)
      | .cpyr => decide (13 ≤ a.extra0) || a.extra1 != 0
      | .cpyg => decide (2 ^ 17 ≤ a.extra0) || a.extra1 != 0
      | .cpyp => a.shape.soff != 0 || a.shape.swz != 0
      | _ => false)

/-- Cause 3. -/
def CopyAsk.uneven (a : CopyAsk) : Bool :=
  a.recs.any (fun r => a.shape.row % r.2.elem != 0) || a.shape.row % swizzleSpan a.shape.swz != 0 ||
    (match a.kind, a.recs with
      | .cpyt, [x, y] => x.2.esz != y.2.esz
      | .cpyr, [x] => (reduction a.extra0).2 != x.2.elem
      | _, _ => false)

/-- Cause 4. -/
def CopyAsk.badTargets (a : CopyAsk) (n span : Nat) : Bool :=
  match a.kind with
  | .cpym => if a.mkind then decide (15 < n + a.nrec) else a.mask == 0 || decide (2 ^ span ≤ a.mask)
  | _ => false

/-- Cause 2: the first byte beyond the scratchpad, of the shape and then of the index list. -/
def CopyAsk.beyond (a : CopyAsk) (size : Nat) : Option Nat :=
  (firstBeyond a.shape.soff (roundUp a.shape.row 64) a.shape.row a.shape.rows size).or
    (if a.kind = .cpyg then firstBeyond (field a.extra0 0 17 * 64) 0 (4 * a.shape.rows) 1 size else none)

/-- Cause 6: the first list position whose row reaches an index of 2^32, through a record without CLMP. -/
def CopyAsk.wildRow (a : CopyAsk) : Option Nat :=
  match a.kind, a.recs with
  | .cpyg, [x] =>
    if x.2.clmp then none
    else (List.range a.shape.rows).find? (fun r => decide (2 ^ 32 ≤ a.index 0 r (a.shape.row / x.2.elem - 1)))
  | _, _ => none

/-- Every element of the copy: its record's number, the record, the row, and the element's index. -/
def CopyAsk.elements (a : CopyAsk) : List (Nat × Buf × Nat × Nat) :=
  a.recs.flatMap (fun x => (List.range a.shape.rows).flatMap (fun r =>
    (List.range (a.shape.row / x.2.elem)).map (fun c => (x.1, x.2, r, a.index x.1 r c))))

/-- Cause 5: the first index out of bound without CLMP. -/
def CopyAsk.outOfBound (a : CopyAsk) : Option Nat :=
  (a.elements.find? (fun e => !e.2.1.clmp && decide (e.2.1.ext ≤ e.2.2.2))).map (fun e => e.2.2.2)

/-- `PROT` cause 3: the mask of refused destination records, and the base of the lowest. -/
def CopyAsk.readOnly (a : CopyAsk) : Option (Nat × Nat) :=
  let bad := if a.load then [] else a.recs.filter (fun r => r.2.ro || r.2.imm)
  (bad.head?).map (fun r => (bad.foldl (fun m r => m + 2 ^ r.1) 0, r.2.base))

/-- The first misaligned element. -/
def CopyAsk.misaligned (a : CopyAsk) : Option Nat :=
  a.elements.findSome? (fun e =>
    if e.2.2.2 < e.2.1.ext ∧ e.2.1.addr e.2.2.2 % e.2.1.elem ≠ 0 then some (e.2.1.addr e.2.2.2) else none)

/-- `BOUNDS` of a copy (R316). -/
def copyBounds (cause detail : Nat) : Stop := wholeTrap .bounds (detail % 2 ^ 32) cause

/-- Steps 3 to 5 of R316. -/
def Issue.copyCheck (I : Issue) (a : CopyAsk) (n : Nat) : Option Stop :=
  if a.reserved then some (copyBounds 1 0)
  else if a.uneven then some (copyBounds 3 0)
  else if a.kind = .cpyp then none
  else if a.badTargets n I.group.span then some (copyBounds 4 0)
  else match a.beyond (I.grid.kd.sp * 65536), a.wildRow, a.outOfBound, a.readOnly, a.misaligned with
    | some b, _, _, _, _ => some (copyBounds 2 b)
    | none, some r, _, _, _ => some (copyBounds 6 r)
    | none, none, some i, _, _ => some (copyBounds 5 i)
    | none, none, none, some (m, base), _ =>
      some (.trap { code := .prot, aux := BitVec.ofNat 32 (m * 256 + 3), addr := BitVec.ofNat 64 base })
    | none, none, none, none, some va => some (.trap { code := .align, addr := BitVec.ofNat 64 va })
    | none, none, none, none, none => none

/-! ### Translation (R316 step 6, R317, R318) -/

/-- The agent of a copy: engine 1 (R392). -/
def Issue.copyAgent (I : Issue) : Agent := { I.agent with eng := 1 }

/-- What a copy does to the pages of its records. -/
def CopyAsk.access (a : CopyAsk) : Access := if a.load then .read else .write

/-- The elements that are in bound: record number, virtual address and what translation finds. A `CPYP` ignores those that are
misaligned (R323). -/
def Issue.copyXlats (I : Issue) (a : CopyAsk) : List (Nat × Nat × Xlat) :=
  a.elements.filterMap (fun e =>
    let va := e.2.1.addr e.2.2.2
    if e.2.2.2 < e.2.1.ext ∧ (a.kind = .cpyp → va % e.2.1.elem = 0) then
      some (e.1, va, I.st.translate I.copyAgent.master I.ctx a.access va)
    else none)

/-- The writes of a copy whose cached translations are discarded when they are denied (R241). -/
def copyStale (load : Bool) (xs : List (Nat × Nat × Xlat)) : List (Access × Nat) :=
  if load then [] else xs.map (fun x => (.write, x.2.1))

/-- The refusal that a copy reports: the cause and address of the lowest, and the destination mask. -/
def copyRefusal (load : Bool) (xs : List (Nat × Nat × Xlat)) : Option Stop :=
  let bad := xs.filterMap (fun x => match x.2.2 with | .prot c => some (x.1, x.2.1, c) | _ => none)
  let bits := (List.range 8).filter (fun k => bad.any (fun b => b.1 == k))
  let mask := if load then 0 else bits.foldl (fun m k => m + 2 ^ k) 0
  (bad.head?).map (fun b =>
    .trap { code := .prot, aux := BitVec.ofNat 32 (mask * 256 + b.2.2), addr := BitVec.ofNat 64 b.2.1, stale := copyStale load xs })

/-- The pages that must wait (R318): the refusal of one faults the warp, naming the destinations in it (R400). -/
def copyWaits (load : Bool) (src : Nat) (xs : List (Nat × Nat × Xlat)) : List Join :=
  let ws := xs.filterMap (fun x => match x.2.2 with | .waits m => some (x.1, x.2.1, m) | _ => none)
  (pageJoins ws src (!load)).map (fun j =>
    let mask := if load then 0 else onesMask (fun k => ws.any (fun w => w.1 == k && w.2.1 / 4096 == j.page))
    { j with aux := BitVec.ofNat 32 (mask * 256 + 5), lanes := none })
where
  onesMask (p : Nat → Bool) : Nat := ((List.range 8).filter p).foldl (fun m k => m + 2 ^ k) 0

/-- The key of an element. -/
def Issue.copyKey (I : Issue) (a : CopyAsk) (va : Nat) : Option Nat :=
  match I.st.translate I.copyAgent.master I.ctx a.access va with
  | .ok key => some key
  | _ => none

/-- The sides of an accepted copy. -/
def Issue.copySides (I : Issue) (a : CopyAsk) : List CopySide :=
  a.recs.map (fun x =>
    { elem := x.2.elem
      rows := (List.range a.shape.rows).map (fun r => (List.range (a.shape.row / x.2.elem)).map (fun c =>
        let i := a.index x.1 r c
        if x.2.ext ≤ i ∨ (a.kind = .cpyp ∧ x.2.addr i % x.2.elem ≠ 0) then none
        else (I.copyKey a (x.2.addr i)).map (fun key => (x.2.addr i, key)))) })

/-- The elements of sides that perform. -/
def sideCells (sides : List CopySide) : List (Nat × Nat) := sides.flatMap (fun x => x.rows.flatMap (fun r => r.filterMap id))

/-- The copy as the unit accepts it. -/
def Issue.newCopy (I : Issue) (a : CopyAsk) (b uid : Nat) : Copy :=
  let sides := I.copySides a
  let cells := sideCells sides
  let lines := if a.load || a.kind == .cpyr then [] else
    sortBy id (distinct ((cells.filter (fun c => decide (c.2 < spaceSize))).map (fun c => lineOf c.2)))
  { uid := uid, core := I.warp.core, warp := I.ref.warp, group := I.group.uid, part := I.group.part, ctx := I.group.ctx,
    grid := I.grid.uid, kind := a.kind, barrier := b,
    credit := a.shape.rows * a.shape.row * (if a.load then a.targets.length else a.recs.length), rows := a.shape.rows,
    rowBytes := a.shape.row, soff := a.shape.soff, swz := a.shape.swz, load := a.load, targets := a.targets, op := a.extra0,
    sides := sides, pages := distinct (cells.map (fun c => c.1 / 4096)), running := false, sent := false, lines := lines,
    owned := 0, asked := none, after := I.st.storeNumber I.warp.core, closing := none,
    from_ := { I.sender with op := uid }, refusedLines := [], refusedMask := 0, refusedVa := none }

/-- Copies in the unit of a core. -/
def State.unitCopies (s : State) (core : Nat) : List Copy := s.copies.filter (fun c => c.core == core)

/-- An instruction that asks for an entry of its core's copy unit (R305). -/
def asksCopyUnit (i : Instr) : Bool :=
  match i with
  | .cpy .. => true
  | .cpys .. => true
  | .cpyt .. => true
  | .cpym .. => true
  | .cpyr .. => true
  | .cpyg .. => true
  | .cpyp .. => true
  | _ => false

/-- A checked copy joins its core's unit. -/
def Issue.acceptCopy (I : Issue) (a : CopyAsk) (b : Nat) (s : State) : State :=
  { s with copies := s.copies ++ [I.newCopy a b s.fresh], fresh := s.fresh + 1 }

/-- Step 6 of R316: every page is translated, or the copy faults or waits. -/
def Issue.translateCopy (I : Issue) (a : CopyAsk) : Except Stop State :=
  let xs := I.copyXlats a
  if xs.any (fun x => x.2.2 == .nowhere) then .error (.halt .noSuchPhysicalAddress)
  else match copyRefusal a.load xs, xs.findSome? (fun x => match x.2.2 with | .stalled key => some key | _ => none) with
    | some e, _ => .error e
    | none, some key => .error (.wait I.st (.walk [key]))
    | none, none =>
      match I.st.sendWalks I.copyAgent a.access (xs.map (fun x => x.2.1)) with
      | .error e => .error e
      | .ok s =>
        let s := s.forget I.copyAgent.master (copyStale a.load xs)
        let waits := copyWaits a.load I.warp.core xs
        if waits.isEmpty then .ok s
        else
          let (s, w) := s.waitOnPages I.group.part I.group.ctx waits
          .error (.wait s w)

/-- A copy instruction (R305, R316 to R318): not ready while the unit is full; checked, translated and accepted. One that waits in
the middle of its checks is still Issuing, and finds the entry that it found at issue (R304). -/
def Issue.copy (I : Issue) (kind : CopyKind) (n : BitVec 4) (c ss : BitVec 6) (b : Nat) : Except Stop Done :=
  let a := I.copyAsk kind n c ss
  if I.latched = false ∧ 32 ≤ (I.st.unitCopies I.warp.core).length then .error (.wait I.st .copyUnit)
  else if kind ≠ .cpyp ∧ I.grid.kd.barrierCfg b = 0 then .error (wholeTrap .barrier 1 b)
  else match I.copyCheck a n.toNat with
    | some e => .error e
    | none =>
      if kind = .cpyp then
        .ok { st := I.acceptCopy a b ((I.st.sendWalks I.copyAgent .read ((I.copyXlats a).map (fun x => x.2.1))).toOption.getD I.st) }
      else match I.translateCopy a with
        | .error e => .error e
        | .ok s => .ok { st := I.acceptCopy a b s }

def execCpy (n : BitVec 4) (c ss : BitVec 6) (b : BitVec 4) (m : BitVec 2) (s : State) : Host.Outcome State Fault Refusal :=
  runInstr (.cpy n c ss b m) (fun I => I.copy .cpy n c ss b.toNat) s

def execCpys (n : BitVec 4) (c ss : BitVec 6) (b : BitVec 4) (m : BitVec 2) (s : State) : Host.Outcome State Fault Refusal :=
  runInstr (.cpys n c ss b m) (fun I => I.copy .cpys n c ss b.toNat) s

def execCpyt (n : BitVec 4) (c ss : BitVec 6) (b : BitVec 4) (m : BitVec 2) (s : State) : Host.Outcome State Fault Refusal :=
  runInstr (.cpyt n c ss b m) (fun I => I.copy .cpyt n c ss b.toNat) s

def execCpym (n : BitVec 4) (c ss : BitVec 6) (b : BitVec 4) (m : BitVec 2) (s : State) : Host.Outcome State Fault Refusal :=
  runInstr (.cpym n c ss b m) (fun I => I.copy .cpym n c ss b.toNat) s

def execCpyr (n : BitVec 4) (c ss : BitVec 6) (b : BitVec 4) (m : BitVec 2) (s : State) : Host.Outcome State Fault Refusal :=
  runInstr (.cpyr n c ss b m) (fun I => I.copy .cpyr n c ss b.toNat) s

def execCpyg (n : BitVec 4) (c ss : BitVec 6) (b : BitVec 4) (m : BitVec 2) (s : State) : Host.Outcome State Fault Refusal :=
  runInstr (.cpyg n c ss b m) (fun I => I.copy .cpyg n c ss b.toNat) s

/-- `CPYP` (R323): what its reads would warm is not state; it occupies a queue entry. -/
def execCpyp (n : BitVec 4) (c ss : BitVec 6) (m : BitVec 2) (s : State) : Host.Outcome State Fault Refusal :=
  runInstr (.cpyp n c ss m) (fun I => I.copy .cpyp n c ss 16) s

/-! ### Waiting and cancelling (R324, R325) -/

/-- Copies of a warp that `CPYW` awaits. -/
def State.awaitedCopies (s : State) (uid : Nat) : Bool := s.copies.any (fun c => c.warp == uid && c.kind != .cpyp)

/-- `CPYW`. -/
def execCpyw (s : State) : Host.Outcome State Fault Refusal :=
  runInstr .cpyw (fun I => if I.st.awaitedCopies I.ref.warp then .error (.wait I.st .copies) else .ok { st := I.st }) s

/-- `CPYX`: the warp's Queued copies are cancelled and their credits given. -/
def execCpyx (d : BitVec 6) (s : State) : Host.Outcome State Fault Refusal :=
  runInstr (.cpyx d) (fun I =>
    let gone := I.st.copies.filter (fun c => c.warp == I.ref.warp && !c.running)
    let bytes := (gone.filter (fun c => c.kind != .cpyp)).foldl (fun a c => a + c.credit) 0
    let w := (I.warp.setS d.toNat (BitVec.ofNat 32 gone.length)).setS (d.toNat + 1) (BitVec.ofNat 32 bytes)
    let s := { I.st.setWarp w with copies := I.st.copies.filter (fun c => !(c.warp == I.ref.warp && !c.running)) }
    .ok { st := gone.foldl (fun s c => if c.kind = .cpyp then s else s.creditBarrier c.group c.barrier c.credit) s }) s

/-! ### Ownership (R319) -/

/-- Whether a copy's request for its next line goes to the home slice: a unit takes the lines of its copies in the order in which it
accepted them, so that no copy holds a line while an older one of its unit waits for one (log entry 105). -/
def State.mayAsk (s : State) (c : Copy) : Bool :=
  !c.running && c.asked.isNone && decide (c.owned < c.lines.length) &&
    (s.unitCopies c.core).all (fun e => decide (c.uid ≤ e.uid) || e.owned == e.lines.length)

/-- The requests that can be sent, stamped in the order in which they reach the home slices. -/
def State.askLines (s : State) : State :=
  s.copies.foldl (fun s c =>
    if s.mayAsk c then ({ s with fresh := s.fresh + 1 }).setCopy { c with asked := some s.fresh } else s) s

/-- The copy to which the home slice of a line grants it: the first whose request arrived there, when no copy owns it, the host does
not hold it, and the slice is within reach. -/
def State.grantee (s : State) (line : Nat) : Option Copy :=
  if s.copyOwns line || s.hostHeld.contains line then none
  else ((sortBy (fun c => c.asked.getD 0) (s.copies.filter (fun c => c.asked.isSome && decide (c.lines[c.owned]? = some line)))).head?).filter
    (fun c => s.reachable (dieOf c.core) (128 * line))

/-- COPY_OWNERSHIP_GRANT. -/
def execCopyOwnershipGrant (line : Nat) (s : State) : Host.Outcome State Fault Refusal :=
  match s.grantee line with
  | none => .next s
  | some c => .next (s.setCopy { c with owned := c.owned + 1, asked := none })

/-! ### Movement (R305, R321, R322) -/

/-- The copy that a unit starts next: its oldest one not Running, once it owns its lines and fewer than four run. -/
def State.startable (s : State) (core : Nat) : Option Copy :=
  if 4 ≤ ((s.unitCopies core).filter Copy.running).length then none
  else ((s.unitCopies core).find? (fun c => !c.running)).filter (fun c => c.owned == c.lines.length)

/-- The elements of a copy on the global side that lie away from its die. -/
def Copy.awayCells (c : Copy) : List (Nat × Nat) := (sideCells c.sides).filter (fun x => away (dieOf c.core) x.2)

/-- The requests for the lines that a copy reads away from its die: class 2 toward a peer, class 0 elsewhere and for the prefetches
of a `CPYP` (R273). -/
def State.askReads (s : State) (c : Copy) : State :=
  if c.load = false then s
  else
    let kind := if c.kind = .cpyp then MsgKind.prefetch else .copyRead c.uid
    (distinct (c.awayCells.map (fun x => lineOf x.2))).foldl (fun s line =>
      match c.awayCells.find? (fun x => lineOf x.2 == line) with
      | some x => s.send (if c.kind ≠ .cpyp ∧ 2 * spaceSize ≤ x.2 then 2 else 0) { c.from_ with va := x.1 } 0 (128 * line) [] kind
      | none => s) s

/-- COPY_START. -/
def execCopyStart (core : Nat) (s : State) : Host.Outcome State Fault Refusal :=
  match s.startable core with
  | some c => .next ((s.setCopy { c with running := true }).askReads c)
  | none => .next s

/-- The `PROT` record of an operation that a peer refused (R444): cause 6, a destination mask and the issuer's address. -/
def State.peerRefused (s : State) (f : Sender) (mask va : Nat) : State :=
  let r : Record :=
    { pc := 0, lanes := 0, code := 5, frag := f.frag, seq := 0, detail := 0, aux := BitVec.ofNat 32 (mask * 256 + 6),
      addr := BitVec.ofNat 64 va, who := f.who, kid := f.kid, gx := f.gx, gy := f.gy, gz := f.gz, gridn := f.gridn, behind := none, own := false }
  s.postRecord f.part f.ctx r (Live.plain 0 5)

/-- Whether a peer refused the read of an element (R444). -/
def Copy.refuses (c : Copy) (key : Nat) : Bool := decide (2 * spaceSize ≤ key) && c.refusedLines.contains (lineOf key)

/-- The bytes of row `r` of a copy's source; a refused element reads as zero (R444). -/
def State.copyRow (s : State) (c : Copy) (r : Nat) : List Byte :=
  if c.load then
    ((c.sides.head?).map (fun x => (x.rows.getD r []).flatMap (fun e =>
      match e with
      | some cell => if c.refuses cell.2 then List.replicate x.elem 0 else s.readGlobal c.core cell.2 x.elem
      | none => List.replicate x.elem 0))).getD []
  else spadRow (s.spadOf c.group (c.targets.headD 0)) c.soff c.rowBytes c.swz r

/-- Bytes that a copy writes at their home, or its contribution with an operation of R314. -/
def State.copyAt (s : State) (key : Nat) (bs : List Byte) (reduce : Option Nat) : State :=
  match reduce with
  | none => { s with mem := memWrites s.mem key bs }
  | some code => { s with mem := memSetNat s.mem key bs.length (reduced code (memNat s.mem key bs.length) (natLE bs)) }

/-- One element written through record `k`, or its contribution made: at a home on the copy's die, and otherwise as a message of
class 2 (R273). -/
def State.copyWrite (s : State) (c : Copy) (k va key : Nat) (bs : List Byte) : State :=
  let red := if c.kind = .cpyr then some c.op else none
  if away (dieOf c.core) key then s.send 2 { c.from_ with va := va } 0 key bs (.copyWrite c.uid k red) else s.copyAt key bs red

/-- The elements of row `r` on the global side, each with its element number and its record's, in element order and then in record
order: the last to map to a byte leaves its value (R321; log entry 90). -/
def Copy.rowCells (c : Copy) (r : Nat) : List (Nat × Nat × Option (Nat × Nat)) :=
  sortBy Prod.fst ((c.sides.zip (List.range c.sides.length)).flatMap (fun x =>
    let cells := x.1.rows.getD r []
    (cells.zip (List.range cells.length)).map (fun e => (e.2, x.2, e.1))))

/-- A row moved from a source to every destination. -/
def State.moveRow (s : State) (c : Copy) (r : Nat) (bs : List Byte) : State :=
  if c.load then
    c.targets.foldl (fun s p => s.setSpadOf c.group p (putSpadRow (s.spadOf c.group p) c.soff c.rowBytes c.swz r bs)) s
  else
    (c.rowCells r).foldl (fun s x =>
      match x.2.2 with
      | none => s
      | some (va, key) =>
        let z := ((c.sides[x.2.1]?).map CopySide.elem).getD 1
        s.copyWrite c x.2.1 va key ((bs.drop (x.1 * z)).take z)) s

/-- The copy with its data moved: it still owns the lines that its messages have yet to write. -/
def Copy.moved (c : Copy) : Copy :=
  let lines := c.lines.filter (fun l => away (dieOf c.core) (128 * l))
  { c with sent := true, lines := lines, owned := lines.length }

/-- The data of a copy moved: every source row is read, then every row is written. -/
def State.moveCopy (s : State) (c : Copy) : State :=
  if c.kind = .cpyp then s.setCopy c.moved
  else
    let data := (List.range c.rows).map (s.copyRow c)
    let s := (data.zip (List.range c.rows)).foldl (fun (s : State) x => s.moveRow c x.2 x.1) s
    let s := s.setCopy c.moved
    if c.load then c.targets.foldl (fun s p => s.settleQueues c.group p) s else s

/-- Whether a message is of a copy. -/
def Message.ofCopy (m : Message) (uid : Nat) : Bool :=
  match m.kind with
  | .copyRead c => c == uid
  | .copyWrite c .. => c == uid
  | _ => false

/-- Whether a message of a copy has not performed, or is not acknowledged. -/
def State.copyUnperformed (s : State) (uid : Nat) : Bool := s.flows.any (fun f => f.held.any (fun m => m.ofCopy uid && !m.performed))
def State.copyOutstanding (s : State) (uid : Nat) : Bool := s.flows.any (fun f => f.held.any (fun m => m.ofCopy uid))

/-- The lines that a copy writes. -/
def Copy.writtenLines (c : Copy) : List Nat := if c.load then [] else (sideCells c.sides).map (fun x => lineOf x.2)

/-- Whether an access of a copy's core, older than the copy, to a line that it writes has not performed (R271, R321). -/
def State.olderThanCopy (s : State) (c : Copy) : Bool :=
  let mine := fun (core seq key : Nat) => core == c.core && decide (seq < c.after) && c.writtenLines.contains (lineOf key)
  s.sbuf.any (fun e => mine e.core e.seq e.key) ||
    s.flows.any (fun f => f.held.any (fun m => m.ordered && !m.performed && mine m.core m.order m.key))

/-- Whether a copy meets a line of its die that the host may hold (R440), or waits for a line that it reads. A `CPYP` ends once its
reads are issued (R323). -/
def State.copyHeld (s : State) (c : Copy) : Bool :=
  c.kind != .cpyp && ((sideCells c.sides).any (fun x => s.snooped x.2) || s.copyUnperformed c.uid)

/-- A Running copy moves its data once the older stores to the lines that it writes have performed. -/
def State.tryCopy (s : State) (c : Copy) : State :=
  if c.sent then s
  else
    let s := s.performWhere (fun e => e.core == c.core && decide (e.seq < c.after) && c.writtenLines.contains (lineOf e.key))
    if s.olderThanCopy c || s.copyHeld c then s else s.moveCopy c

/-- A copy is Complete: its record when a peer refused it, and its credit (R322, R444). -/
def State.endCopy (s : State) (c : Copy) : State :=
  let s := { s with copies := s.copies.filter (fun x => x.uid != c.uid) }
  let s := match c.refusedVa with
    | some va => s.peerRefused c.from_ c.refusedMask va
    | none => s
  if c.kind = .cpyp then s else s.creditBarrier c.group c.barrier c.credit

/-- Whether the credit of a copy waits, as a release at its group's scope, for the accesses of its core before it (R270). -/
def State.creditWaits (s : State) (c : Copy) : Bool := c.closing.any (s.unperformed c.core)

/-- A copy whose writes have performed and are acknowledged: the credit is a release, and the accesses before it perform. -/
def State.closeCopy (s : State) (c : Copy) : State :=
  if ((s.group? c.group).map Group.scope).getD 0 = 0 ∨ c.kind = .cpyp then s.endCopy c
  else
    let upto := c.closing.getD (s.storeNumber c.core)
    let c := { c with closing := some upto }
    let s := (s.setCopy c).performWhere (fun e => e.core == c.core && decide (e.seq < upto))
    if s.creditWaits c then s else s.endCopy c

/-- COPY_COMPLETE: a Running copy of a core's unit moves its data; once every write has performed and is acknowledged, it credits its
barrier. -/
def execCopyComplete (core uid : Nat) (s : State) : Host.Outcome State Fault Refusal :=
  match s.copy? uid with
  | none => .next s
  | some c =>
    if c.core ≠ core ∨ c.running = false then .next s
    else
      let s := s.tryCopy c
      match s.copy? uid with
      | none => .next s
      | some c => .next (if c.sent = false ∨ s.copyOutstanding uid = true then s else s.closeCopy c)

end Sys2Proof.Machine
end

