-- ==== Sys2Proof/Machine/Cross.lean ====
section
/-! DEFINITION. Class 0x7: crossing lanes, lane masks, reductions and packing (R191 to R206). -/

namespace Sys2Proof.Machine

/-! ### Shuffle and permute -/

/-- A byte permute of one lane (R195). -/
def permBytes (ctl a b : Word) : Word :=
  let src := a.toNat + b.toNat * 2 ^ 32
  subWord 8 (fun i =>
    let n := field ctl.toNat (4 * i) 4
    if n < 8 then field src (8 * n) 8 else 0)

/-- `VSHFL` (R194). -/
def execVshfl (d a b : BitVec 7) (i : BitVec 1) (s : State) : Host.Outcome State Fault Refusal :=
  runInstr (.vshfl d a b i) (fun I =>
    let x := I.va a
    let y := I.vb b i
    .ok (I.doneV d (perLane (fun L => lane x ((lane y L).toNat % 32))))) s

/-- `VPERM` (R195). -/
def execVperm (d a b : BitVec 7) (s : State) : Host.Outcome State Fault Refusal :=
  runInstr (.vperm d a b) (fun I => .ok (I.doneV d (mapLanes (fun x y ctl => permBytes ctl x y) (I.va a) (I.vr b) (I.vd d)))) s

/-! ### Matching, ballots and votes -/

/-- The key of a lane (R196). -/
def matchKey (h : HMod) (x : Word) : Nat :=
  if h.wid = 0 then x.toNat else subElem (subWidth h.wid) x (if h.sela = 0 then 7 else h.sela - 1)

/-- `VMATCH` (R196). -/
def execVmatch (k : BitVec 3) (a m : BitVec 7) (s : State) : Host.Outcome State Fault Refusal :=
  runInstr (.vmatch k a m) (fun I =>
    let x := I.va a
    let key := fun L => matchKey I.h.m (lane x L)
    let same := fun L => maskOf (fun M => I.mask.getLsbD M && key M == key L)
    let first := maskOf (fun L => (List.range L).all (fun M => !(I.mask.getLsbD M && key M == key L)))
    .ok { st := I.put ((I.warp.writeV m.toNat I.mask (perLane same)).setK k.toNat (I.maskBits k first)) }) s

/-- `VBALLOT` (R197): the whole register. -/
def execVballot (k : BitVec 3) (c : BitVec 4) (a b : BitVec 7) (i : BitVec 1) (s : State) : Host.Outcome State Fault Refusal :=
  runInstr (.vballot k c a b i) (fun I =>
    let x := I.va a
    let y := I.vb b i
    .ok (I.doneK k (maskOf (fun L => I.mask.getLsbD L && intCond c.toNat (lane x L) (lane y L))))) s

/-- `VVOTE` (R197): one in every lane of G when the predicate holds in all of them. -/
def execVvote (k : BitVec 3) (c : BitVec 4) (a b : BitVec 7) (i : BitVec 1) (s : State) : Host.Outcome State Fault Refusal :=
  runInstr (.vvote k c a b i) (fun I =>
    let x := I.va a
    let y := I.vb b i
    .ok (I.doneK k (I.maskBits k (if I.lanes.all (fun L => intCond c.toNat (lane x L) (lane y L)) then 0xFFFFFFFF else 0)))) s

/-- `VELECT` (R197): the lowest lane of G. -/
def execVelect (k : BitVec 3) (s : State) : Host.Outcome State Fault Refusal :=
  runInstr (.velect k) (fun I => .ok (I.doneK k (I.maskBits k (maskOf (fun L => L == lowestLane I.mask))))) s

/-! ### Lane masks (R198, R199) -/

/-- A mask register as it is read. -/
def Issue.kv (I : Issue) (k : BitVec 3) : Word := I.view.getK k.toNat

def execKand (d a b : BitVec 3) (s : State) : Host.Outcome State Fault Refusal :=
  runInstr (.kand d a b) (fun I => .ok (I.doneK d (I.kv a &&& I.kv b))) s

def execKor (d a b : BitVec 3) (s : State) : Host.Outcome State Fault Refusal :=
  runInstr (.kor d a b) (fun I => .ok (I.doneK d (I.kv a ||| I.kv b))) s

def execKxor (d a b : BitVec 3) (s : State) : Host.Outcome State Fault Refusal :=
  runInstr (.kxor d a b) (fun I => .ok (I.doneK d (I.kv a ^^^ I.kv b))) s

def execKnot (d a : BitVec 3) (s : State) : Host.Outcome State Fault Refusal :=
  runInstr (.knot d a) (fun I => .ok (I.doneK d (~~~I.kv a))) s

def execKmov (d a : BitVec 3) (s : State) : Host.Outcome State Fault Refusal :=
  runInstr (.kmov d a) (fun I => .ok (I.doneK d (I.kv a))) s

/-- A scalar result of a class 0x7 word. -/
def Issue.scalar (I : Issue) (d : BitVec 6) (x : Word) : Done := { st := I.put (I.warp.setS d.toNat x) }

def execKcnt (d : BitVec 6) (k : BitVec 3) (s : State) : Host.Outcome State Fault Refusal :=
  runInstr (.kcnt d k) (fun I => .ok (I.scalar d (BitVec.ofNat 32 (popCount (I.kv k))))) s

def execKfirst (d : BitVec 6) (k : BitVec 3) (s : State) : Host.Outcome State Fault Refusal :=
  runInstr (.kfirst d k) (fun I => .ok (I.scalar d (BitVec.ofNat 32 (lowestLane (I.kv k))))) s

def execKtos (d : BitVec 6) (k : BitVec 3) (s : State) : Host.Outcome State Fault Refusal :=
  runInstr (.ktos d k) (fun I => .ok (I.scalar d (I.kv k))) s

def execStok (a : BitVec 6) (k : BitVec 3) (s : State) : Host.Outcome State Fault Refusal :=
  runInstr (.stok a k) (fun I => .ok (I.doneK k (I.view.getS a.toNat))) s

/-! ### Reductions and scans (R200, R201) -/

/-- `VREDX`; an empty G writes nothing (R201). -/
def execVredx (d a o : BitVec 7) (s : State) : Host.Outcome State Fault Refusal :=
  runInstr (.vredx d a o) (fun I =>
    let x := I.va a
    let v := combine I.h.m (o.toNat % 16) (I.lanes.map (lane x))
    .ok (if I.mask = 0 then { st := I.st } else I.doneV d (perLane (fun _ => v)))) s

/-- `VSCANX`: bit 4 of the operation makes it exclusive; an empty G writes nothing (R201). -/
def execVscanx (d a o : BitVec 7) (s : State) : Host.Outcome State Fault Refusal :=
  runInstr (.vscanx d a o) (fun I =>
    let x := I.va a
    let below := fun L => I.lanes.filter (fun M => decide (M < L) || (M == L && !o.getLsbD 4))
    .ok (if I.mask = 0 then { st := I.st }
      else I.doneV d (perLane (fun L => combine I.h.m (o.toNat % 16) ((below L).map (lane x)))))) s

/-! ### Packing (R202 to R204) -/

/-- The element that a lane gives to a packed stream. -/
def packElem (h : HMod) (w : Nat) (x : Word) : Nat :=
  if h.sat then
    (if h.sgn then wrapTo w (clampInt x.toInt (-(2 ^ (w - 1) : Nat)) ((2 ^ (w - 1) : Nat) - 1)) else min x.toNat (2 ^ w - 1))
  else x.toNat % 2 ^ w

/-- The body of a pack to elements of `w` bits: `w` stream lanes from lane `p` (R203). -/
def packBody (w : Nat) (d a p : BitVec 7) : Body := fun I =>
  let x := I.va a
  let stream := joinSubs w (fun L => if I.mask.getLsbD L then packElem I.h.m w (lane x L) else 0) 32
  let at_ := maskOf (fun L => decide (p.toNat ≤ L) && decide (L < p.toNat + w))
  .ok { st := I.put (I.warp.writeV d.toNat at_ (perLane (fun L => BitVec.ofNat 32 (field stream (32 * (L - p.toNat)) 32)))) }

def execVpackb (d a p : BitVec 7) (s : State) : Host.Outcome State Fault Refusal :=
  runInstr (.vpackb d a p) (packBody 8 d a p) s

def execVpackn (d a p : BitVec 7) (s : State) : Host.Outcome State Fault Refusal :=
  runInstr (.vpackn d a p) (packBody 4 d a p) s

def execVpack6 (d a p : BitVec 7) (s : State) : Host.Outcome State Fault Refusal :=
  runInstr (.vpack6 d a p) (packBody 6 d a p) s

/-- `VUNPK6` (R204). -/
def execVunpk6 (d a p : BitVec 7) (s : State) : Host.Outcome State Fault Refusal :=
  runInstr (.vunpk6 d a p) (fun I =>
    let x := I.va a
    let stream := joinSubs 32 (fun j => (lane x (p.toNat + j)).toNat) 6
    .ok (I.doneV d (perLane (fun L =>
      let e := field stream (6 * L) 6
      BitVec.ofNat 32 (if I.h.m.sgn then wrapTo 32 (signedOf 6 e) else e))))) s

/-! ### Compression and expansion (R205, R206) -/

/-- `VCMPR` (R205): all 32 lanes of the destination. -/
def execVcmpr (d a : BitVec 7) (s : State) : Host.Outcome State Fault Refusal :=
  runInstr (.vcmpr d a) (fun I =>
    let x := I.va a
    let list := I.lanes.map (fun L => if I.h.m.wid = 0 then (lane x L).toNat else toBf16 (lane x L))
    let v := perLane (fun L =>
      if I.h.m.wid = 0 then BitVec.ofNat 32 (list.getD L 0)
      else BitVec.ofNat 32 (list.getD (2 * L) 0 + list.getD (2 * L + 1) 0 * 2 ^ 16))
    .ok { st := I.put (I.warp.putV d.toNat v) }) s

/-- `VXPND` (R206). -/
def execVxpnd (d a : BitVec 7) (s : State) : Host.Outcome State Fault Refusal :=
  runInstr (.vxpnd d a) (fun I =>
    let x := I.va a
    .ok (I.doneV d (perLane (fun L =>
      let i := onesBelow I.mask.getLsbD L
      if I.h.m.wid = 0 then lane x i else BitVec.ofNat 32 (field (lane x (i / 2)).toNat (16 * (i % 2)) 16 * 2 ^ 16))))) s

end Sys2Proof.Machine
end

