-- ==== Sys2Proof/Machine/Launch.lean ====
section
/-! DEFINITION. Packets (R425), and class 0xA: `KLAUNCH`, `SIGADD` and `SIGWAIT` (R433 to R435). -/

namespace Sys2Proof.Machine

/-! ### Packets (R425) -/

/-- A packet: 64 bytes as one number, byte 0 lowest. -/
abbrev Packet := BitVec 512

/-- The `n`-byte field at a byte of a packet. -/
def Packet.get (p : Packet) (at_ n : Nat) : Nat := field p.toNat (8 * at_) (8 * n)

def Packet.type (p : Packet) : Nat := p.get 0 1
def Packet.bar (p : Packet) : Bool := p.getLsbD 8
def Packet.hndl (p : Packet) : Bool := p.getLsbD 9
def Packet.localDone (p : Packet) : Bool := p.getLsbD 10
def Packet.kid (p : Packet) : Nat := p.get 4 4
def Packet.gridOf (p : Packet) : Nat × Nat × Nat := (p.get 8 4, p.get 12 4, p.get 16 4)
def Packet.args (p : Packet) : Nat := p.get 24 8
def Packet.va (p : Packet) : Nat := p.get 8 8
def Packet.len (p : Packet) : Nat := p.get 24 8
def Packet.done (p : Packet) : Nat := p.get 32 8
def Packet.dadd (p : Packet) : Nat := p.get 40 4
def Packet.dep (p : Packet) : Nat := p.get 48 8
def Packet.depv (p : Packet) : Nat := p.get 56 8

/-- Whether a reserved bit or field is not zero. Type 0 has bits [10:9] of HDR reserved with those of types 3 and 4 (log
entry 23). -/
def Packet.reserved (p : Packet) : Bool :=
  let common := p.get 0 4 / 2 ^ 11 != 0 || p.get 20 4 != 0 || p.get 44 4 != 0
  match p.type with
  | 0 => common || p.hndl || p.localDone || p.get 4 28 != 0 || p.get 40 8 != 0
  | 1 => common
  | 3 => common || p.hndl || p.localDone || p.get 4 28 != 0
  | 4 => common || p.hndl || p.localDone || p.get 4 4 != 0 || p.get 16 4 != 0
  | _ => common

/-! ### Submission queues (R424) -/

/-- A queue that was never written: all fields zero. -/
def SubQueue.none (n : Nat) : SubQueue :=
  { n := n, base := 0, cfg := 0, stop := false, cause := 0, wptr := 0, rptr := 0, blocked := .none, future := .none,
    open_ := [], shooting := .none }

def Ctx.queueOr (c : Ctx) (n : Nat) : SubQueue := (c.queue? n).getD (SubQueue.none n)
def Ctx.putQueue (c : Ctx) (q : SubQueue) : Ctx := { c with queues := insertBy SubQueue.n q c.queues }

def SubQueue.en (q : SubQueue) : Bool := q.cfg.getLsbD 31
def SubQueue.priv (q : SubQueue) : Bool := q.cfg.getLsbD 30
def SubQueue.dev (q : SubQueue) : Bool := q.cfg.getLsbD 29
def SubQueue.prio (q : SubQueue) : Nat := field q.cfg.toNat 16 2
def SubQueue.entries (q : SubQueue) : Nat := 2 ^ field q.cfg.toNat 0 5

/-- The virtual address of ring entry `i`. -/
def SubQueue.entryAt (q : SubQueue) (i : Nat) : Nat := vaMask (q.base.toNat + 64 * (i % q.entries))

/-! ### One access at a pointer -/

/-- The one lane of an access at an address held in a pair of scalars. -/
def Issue.pointer (I : Issue) (va n : Nat) (write : Bool) : List LaneState :=
  let x := I.st.translate I.agent.master I.ctx (if write then .write else .read) va
  [{ lane := 0, idx := 0, size := n, chk := .want va, xlat := some x }]

/-- The alignment of a pointer (R433, R435). -/
def misaligned (addr : Dword) (n : Nat) : Option Stop :=
  if addr.toNat % n ≠ 0 then some (.trap { code := .align, addr := addr }) else none

/-- The checks of a signal's address (R433). -/
def signalAddr (addr : Dword) : Option Stop :=
  if 2 ^ 57 ≤ addr.toNat then some (.trap { code := .prot, addr := addr }) else misaligned addr 8

/-! ### `KLAUNCH` (R435) -/

/-- The status that a queue and a packet give. -/
def launchStatus (q : SubQueue) (p : Packet) : Nat :=
  if q.en = false ∨ q.dev = false ∨ q.stop = true then 2
  else if (p.type ≠ 0 ∧ p.type ≠ 1 ∧ p.type ≠ 3) ∨ p.hndl = true ∨ p.reserved = true then 3
  else if (q.wptr - q.rptr).toNat = q.entries then 1
  else 0

/-- The packet appended: the ring entry is written through the context's page table, and WPTR moves. Away from the die it crosses in
class 1 (R273; log entry 84). -/
def Issue.append (I : Issue) (q : SubQueue) (p : Packet) : Except Stop State :=
  let ls := I.pointer (q.entryAt q.wptr.toNat) 64 true
  let die := dieOf I.warp.core
  match I.st.settle I.agent ls { core := I.warp.core, scope := 3, promotes := false } true false with
  | .error e => .error e
  | .ok s =>
    match (performLanes ls).find? (fun l => !s.exchanges die 1 l.2.2) with
    | some l => .error (.wait s (.crossing die 1 l.2.2))
    | none =>
      let s := (performLanes ls).foldl (fun (s : State) l =>
        { s.exchange I.sender 1 l.2.2 with mem := memWrites s.mem l.2.2 (bytesLE 64 p.toNat) }) s
      match s.ctxOf I.group with
      | none => .ok s
      | some c => .ok (s.setCtx (c.putQueue { q with wptr := q.wptr + 1 }))

/-- `KLAUNCH`. -/
def execKlaunch (a : BitVec 6) (n : BitVec 6) (s : State) : Host.Outcome State Fault Refusal :=
  runInstr (.klaunch a n) (fun I =>
    let addr := I.view.getPair a.toNat
    match I.release I.st 3 with
    | .error e => .error e
    | .ok s =>
      let I := { I.at s with view := I.view }
      match misaligned addr 64 with
      | some e => .error e
      | none =>
        let ls := I.pointer (vaMask addr.toNat) 64 false
        match I.st.settle I.agent ls { core := I.warp.core, scope := 0, promotes := false } false true with
        | .error e => .error e.whole
        | .ok s =>
          let p := BitVec.ofNat 512 (laneNat (s.loadLanes I.agent 64 ls) 0)
          let q := I.ctx.queueOr n.toNat
          let st := launchStatus q p
          let I := { I.at s with view := I.view }
          match (if st = 0 then I.append q p else .ok s) with
          | .error e => .error e.whole
          | .ok s =>
            let i := if st = 0 then q.wptr else 0
            .ok { st := s.setWarp ((((I.at s).warp).setS (a.toNat + 2) (BitVec.ofNat 32 st)).setS (a.toNat + 3) i) }) s

/-! ### Signals (R433, R434) -/

/-- `SIGADD`: one 8-byte atomic, an addition or with SET an exchange. -/
def execSigadd (a : BitVec 6) (e : BitVec 1) (s : State) : Host.Outcome State Fault Refusal :=
  runInstr (.sigadd a e) (fun I =>
    let addr := I.view.getPair a.toNat
    match signalAddr addr with
    | some x => .error x
    | none =>
      wholeStop (I.atomics (I.pointer addr.toNat 8 true) 8 (if e = 1#1 then 9 else 0) I.allLanes
        (fun _ => (I.view.getPair (a.toNat + 2)).toNat) (fun _ => none) (.scalar (a.toNat + 2) true))) s

/-- `SIGWAIT`: the signal read, and a wait until it may have changed. -/
def execSigwait (a : BitVec 6) (e : BitVec 1) (s : State) : Host.Outcome State Fault Refusal :=
  runInstr (.sigwait a e) (fun I =>
    let addr := I.view.getPair a.toNat
    let want := I.view.getPair (a.toNat + 2)
    match signalAddr addr with
    | some x => .error x
    | none =>
      let ls := I.pointer addr.toNat 8 false
      match I.st.settle I.agent ls I.visitLoad false true with
      | .error x => .error x.whole
      | .ok s =>
        let v := laneNat (s.loadLanes I.agent 8 ls) 0
        if want.toNat ≤ v ∨ e = 1#1 then .ok { st := s.setWarp ((I.at s).warp.setPair (a.toNat + 2) (BitVec.ofNat 64 v)) }
        else .error (.wait s (.signal addr want))) s

/-- Whether a waiting `SIGWAIT` has cause to look again: its test is met, or its address does not translate (R434). -/
def State.signalDue (s : State) (w : Warp) (addr val : Dword) : Bool :=
  match s.group? w.group with
  | none => false
  | some g =>
    match s.ctxOf g with
    | none => false
    | some c =>
      match s.translate { part := g.part, slot := g.ctx, eng := 0, core := w.core } c .read addr.toNat with
      | .ok key => decide (val.toNat ≤ natLE (s.readGlobal w.core key 8))
      | _ => true

/-- SIGWAIT_POLL (R434): a waiting `SIGWAIT` that has cause re-executes. -/
def execSigwaitPoll (warp frag : Nat) (s : State) : Host.Outcome State Fault Refusal :=
  match s.warp? warp with
  | none => .next s
  | some w =>
    match (w.frag? frag).map Frag.wait with
    | some (.signal addr val) => if s.signalDue w addr val then .next (s.retryFrag { warp := warp, frag := frag }) else .next s
    | _ => .next s

end Sys2Proof.Machine
end

