-- ==== Sys2Proof/Machine/Group.lean ====
section
/-! DEFINITION. Class 0xA, elastic groups (R371 to R375). -/

namespace Sys2Proof.Machine

/-- Warps of a role that have not exited (R372). -/
def State.liveOf (s : State) (g : Group) (r : Nat) : Nat := ((s.warpsOf g).filter (fun w => roleNat w.role == r)).length

/-- The maximum of a role. -/
def KernelDesc.maxOf (kd : KernelDesc) (r : Nat) : Nat := (kd.warps.getD r (0, 0)).2

/-- Three counts as `GINFO` lays them out: copy lowest. -/
def countsWord (f : Nat → Nat) : Nat := f 0 + f 1 * 2 ^ 8 + f 2 * 2 ^ 16

/-- Whether requests for a role are accepted at all: an attach entry point, and the `elastic` feature (R455). -/
def Issue.mayGrow (I : Issue) (r : Nat) : Bool := I.st.feature 3 && I.grid.kd.attach.getD r 0xFFFFFFFF != 0xFFFFFFFF

/-- `GGROW` (R372). -/
def execGgrow (d : BitVec 6) (c : BitVec 1) (r : BitVec 2) (n : BitVec 8) (s : State) : Host.Outcome State Fault Refusal :=
  runInstr (.ggrow d c r n) (fun I =>
    let r := r.toNat
    let pend := I.group.pend.getD r 0
    if c = 1#1 then
      let s := (I.put (I.warp.setS d.toNat (BitVec.ofNat 32 pend))).setGroup { I.group with pend := setAt I.group.pend r 0 }
      .ok { st := s.faultOrphans I.group.uid }
    else
      let room := I.grid.kd.maxOf r - I.st.liveOf I.group r - pend
      let acc := if I.mayGrow r then min n.toNat room else 0
      let w := I.warp.setS d.toNat (BitVec.ofNat 32 ((pend + acc) * 2 ^ 8 + acc))
      .ok { st := (I.put w).setGroup { I.group with pend := setAt I.group.pend r (pend + acc) } }) s

/-- `GLEAVE` (R374): the instructions that the warp issued before complete, then a release at the group's scope, and the end of the
warp. -/
def execGleave (s : State) : Host.Outcome State Fault Refusal :=
  runInstr .gleave (fun I =>
    if I.warp.othersAct I.ref.frag then .error (.wait I.st .leaving)
    else match I.release I.st I.group.scope with
      | .error e => .error e
      | .ok s => .ok { st := s.endWarp I.ref.warp, flow := .done }) s

/-- The span map (R375 sel 4). -/
def Group.spanMap (g : Group) : Nat :=
  (List.range g.span).foldl (fun a p => a + g.coreAt p % 8 * 2 ^ (3 * p)) 0

/-- `GINFO` (R375). -/
def execGinfo (d : BitVec 6) (e : BitVec 3) (s : State) : Host.Outcome State Fault Refusal :=
  runInstr (.ginfo d e) (fun I =>
    let x := match e.toNat with
      | 0 => countsWord (I.st.liveOf I.group)
      | 1 => countsWord (fun r => I.group.pend.getD r 0)
      | 2 => countsWord I.grid.kd.maxOf
      | 3 => I.group.evct.toNat
      | _ => I.group.spanMap
    .ok { st := I.put (I.warp.setS d.toNat (BitVec.ofNat 32 x)) }) s

end Sys2Proof.Machine
end

