-- ==== Sys2Proof/Machine/TileStore.lean ====
section
/-! DEFINITION. Tiles in the tile store, and what each engine operation does to them (R275, R276, R282 to R297). -/

namespace Sys2Proof.Machine

/-! ### Declarations and images (R275, R276, R417) -/

/-- A declared tile: rows, columns, accumulator (1 binary32, 2 binary64, 3 int32) and the byte of its image. -/
structure Tile where
  rows : Nat
  cols : Nat
  acc  : Nat
  base : Nat
  deriving DecidableEq, Repr

/-- Bytes of an element, and of the side area. -/
def Tile.width (t : Tile) : Nat := if t.acc = 2 then 8 else 4
def Tile.side (t : Tile) : Nat := roundUp (12 * t.rows) 64
def Tile.bytes (t : Tile) : Nat := 64 + t.side + t.rows * t.cols * t.width

def KernelDesc.tileWord (kd : KernelDesc) (n : Nat) : Nat := (kd.tiles.getD n 0).toNat

/-- The tile that a declaration describes, its image at a byte. -/
def tileAt (w base : Nat) : Tile := { rows := 8 * field w 0 6, cols := 8 * field w 8 6, acc := field w 16 2, base := base }

/-- The first byte of a tile's image. -/
def KernelDesc.tileBase (kd : KernelDesc) (n : Nat) : Nat :=
  (List.range n).foldl (fun a i => if kd.tileWord i = 0 then a else a + roundUp (tileAt (kd.tileWord i) 0).bytes 64) 0

/-- A declared tile. -/
def KernelDesc.tile? (kd : KernelDesc) (n : Nat) : Option Tile :=
  if kd.tileWord n = 0 then none else some (tileAt (kd.tileWord n) (kd.tileBase n))

/-- The accumulator's format; binary32 stands in for int32, whose elements are integers. -/
def Tile.fmt (t : Tile) : Fmt := if t.acc = 2 then binary64 else binary32

def Tile.elemAt (t : Tile) (i j : Nat) : Nat := t.base + 64 + t.side + (i * t.cols + j) * t.width
def Tile.sideAt (t : Tile) (i : Nat) : Nat := t.base + 64 + 12 * i

/-- The codes of -infinity and 1.0 in binary32. -/
def negInf32 : Nat := 0xFF800000
def one32 : Nat := 0x3F800000

/-- The side registers of every row as placement and `TZERO` leave them. -/
def Tile.freshSide (t : Tile) : List Byte :=
  (List.range t.rows).flatMap (fun _ => bytesLE 4 negInf32 ++ bytesLE 4 0 ++ bytesLE 4 one32)

/-- The image of a tile at placement. -/
def Tile.initial (t : Tile) (m : List Host.Cell) : List Host.Cell := memPut m (t.sideAt 0) t.freshSide

/-- The tile store of a core at placement. -/
def KernelDesc.tileStore (kd : KernelDesc) : List Host.Cell :=
  (List.range 16).foldl (fun m n => match kd.tile? n with | some t => t.initial m | none => m) []

/-! ### Fields of an image -/

def Tile.amax (t : Tile) (m : List Host.Cell) : Nat := memNat m t.base t.width
def Tile.dseq (t : Tile) (m : List Host.Cell) : Nat := memNat m (t.base + 8) 4
def Tile.gang (t : Tile) (m : List Host.Cell) : Nat := memNat m (t.base + 12) 4
def Tile.setAmax (t : Tile) (m : List Host.Cell) (x : Nat) : List Host.Cell := memSetNat m t.base 8 x
def Tile.elem (t : Tile) (m : List Host.Cell) (i j : Nat) : Nat := memNat m (t.elemAt i j) t.width

/-! ### A tile or a gang as one array of rows (R288) -/

/-- The parts of a tile: gang rows and columns, and the span position of part (0, 0); the others follow it. -/
structure Gang where
  gr    : Nat
  gc    : Nat
  first : Nat
  deriving DecidableEq, Repr

/-- The parts that an operation sees: those of a gang word, or the one tile of a position. -/
def Gang.of (word pos : Nat) : Gang :=
  if word = 0 then { gr := 1, gc := 1, first := pos } else { gr := field word 0 3 + 1, gc := field word 3 3 + 1, first := 0 }

def Gang.pos (G : Gang) (p q : Nat) : Nat := G.first + p * G.gc + q
def Gang.parts (G : Gang) : List Nat := (List.range (G.gr * G.gc)).map (fun i => G.first + i)

/-- Row `I` of a whole tile: its element codes across the parts. -/
def Group.tileRow (g : Group) (T : Tile) (G : Gang) (I : Nat) : List Nat :=
  (List.range G.gc).flatMap (fun q => (List.range T.cols).map (T.elem (g.tilesAt (G.pos (I / T.rows) q)) (I % T.rows)))

/-- Row `I` of a whole tile replaced. -/
def Group.putTileRow (g : Group) (T : Tile) (G : Gang) (I : Nat) (row : List Nat) : Group :=
  (List.range G.gc).foldl (fun (g : Group) q =>
    let pos := G.pos (I / T.rows) q
    g.setTiles pos (memPut (g.tilesAt pos) (T.elemAt (I % T.rows) 0)
      (((row.drop (q * T.cols)).take T.cols).flatMap (bytesLE T.width)))) g

/-- The side registers MX, SM and AL of row `I`: those of the part in gang column 0, which R292 keeps equal to the other parts'. Parts
that were bound with different values may differ, and the spec does not say which count (log entry 116). -/
def Group.sideRow (g : Group) (T : Tile) (G : Gang) (I : Nat) : Nat × Nat × Nat :=
  let m := g.tilesAt (G.pos (I / T.rows) 0)
  let a := T.sideAt (I % T.rows)
  (memNat m a 4, memNat m (a + 4) 4, memNat m (a + 8) 4)

def Group.putSideRow (g : Group) (T : Tile) (G : Gang) (I mx sm al : Nat) : Group :=
  (List.range G.gc).foldl (fun (g : Group) q =>
    let pos := G.pos (I / T.rows) q
    g.setTiles pos (memPut (g.tilesAt pos) (T.sideAt (I % T.rows)) (bytesLE 4 mx ++ bytesLE 4 sm ++ bytesLE 4 al))) g

/-- The rows of a whole tile. -/
def Tile.allRows (T : Tile) (G : Gang) : List Nat := List.range (G.gr * T.rows)

/-- Every row of a whole tile mapped. -/
def Group.mapRows (g : Group) (T : Tile) (G : Gang) (f : Nat → List Nat → List Nat) : Group :=
  (T.allRows G).foldl (fun (g : Group) I => g.putTileRow T G I (f I (g.tileRow T G I))) g

/-- A change of the image of every part. -/
def Group.mapParts (g : Group) (G : Gang) (f : Nat → List Host.Cell → List Host.Cell) : Group :=
  G.parts.foldl (fun (g : Group) p => g.setTiles p (f p (g.tilesAt p))) g

/-! ### Operands (R281 to R283) -/

/-- A tile operand descriptor. -/
structure Operand where
  off  : Nat
  fmt  : Nat
  sg   : Nat
  tr   : Bool
  ext  : Nat
  k    : Nat
  soff : Nat
  src  : Nat
  mcm  : Nat
  deriving DecidableEq, Repr

def Operand.of (d : Dword) : Operand :=
  let x := d.toNat
  { off := field x 0 17 * 64, fmt := field x 17 4, sg := field x 21 2, tr := x.testBit 23, ext := 8 * (field x 24 5 + 1),
    k := 8 * (field x 29 7 + 1), soff := field x 36 17 * 64, src := field x 53 3, mcm := field x 56 8 }

/-- Bytes from a line's first element to the next line's. -/
def linePitch (elems bits : Nat) : Nat := roundUp ((elems * bits + 7) / 8) 64

/-- Element `n` of a packed line (R202, R282). -/
def lineElem (m : List Host.Cell) (a n bits : Nat) : Nat := field (memNat m (a + n * bits / 8) 9) (n * bits % 8) bits

/-- Lines and elements of a line of an operand with `ext` rows or columns. -/
def Operand.lines (o : Operand) (ext : Nat) : Nat × Nat := if o.tr then (o.k, ext) else (ext, o.k)

/-- The code of element k of row or column i. -/
def Operand.code (o : Operand) (f : Fmt) (ext : Nat) (m : List Host.Cell) (i k : Nat) : Nat :=
  let (line, n) := if o.tr then (k, i) else (i, k)
  lineElem m (o.off + line * linePitch (o.lines ext).2 f.width) n f.width

/-- The block length along k of the scales that apply, or none; SG = 3 has one scale per row or column. -/
def Operand.block (o : Operand) (f : Fmt) : Option Nat :=
  if f.scaled ≠ 0 then some f.block
  else match o.sg with
    | 1 => some 16
    | 2 => some 32
    | _ => none

def Operand.hasScale (o : Operand) (f : Fmt) : Bool := f.scaled != 0 || o.sg != 0

/-- The bytes of the scale codes of one row or column, rounded to a line. -/
def scalePitch (k block : Nat) : Nat := roundUp (k / block) 64

/-- The scale of element k of row or column i (R77, R283). -/
def Operand.scale (o : Operand) (f : Fmt) (m : List Host.Cell) (i k : Nat) : Value :=
  if o.hasScale f = false then .fin false (Rat'.ofInt 1)
  else
    let code := match o.block f with
      | some b => memNat m (o.soff + i * scalePitch o.k b + k / b) 1
      | none => memNat m (o.soff + i) 1
    (if f.scaled = 0 then { f with scaled := 1 } else f).scaleValue code

/-- The scaled value of element k of row or column i. -/
def Operand.value (o : Operand) (f : Fmt) (ext : Nat) (m : List Host.Cell) (i k : Nat) : Value :=
  mulValue (o.scale f m i k) (f.decode (o.code f ext m i k))

/-- The integer code of element k of row or column i (R91). -/
def Operand.int (o : Operand) (f : Fmt) (ext : Nat) (m : List Host.Cell) (i k : Nat) : Int :=
  let c := o.code f ext m i k
  if f.signed then signedOf f.width c else (c : Int)

/-- The end of the operand and of its scale array (R280 cause 2). -/
def Operand.end_ (o : Operand) (f : Fmt) (ext : Nat) : Nat :=
  let (lines, n) := o.lines ext
  let e := o.off + (lines - 1) * linePitch n f.width + (n * f.width + 7) / 8
  if o.hasScale f = false then e
  else match o.block f with
    | some b => max e (o.soff + (ext - 1) * scalePitch o.k b + o.k / b)
    | none => max e (o.soff + ext)

/-! ### Matrix sums (R90, R91) -/

/-- The run length of a pairing; none for one outside R90. -/
def runLength (fa fb : Fmt) (acc : Nat) : Option Nat :=
  if fa.width ≤ 16 ∧ fb.width ≤ 16 then
    if acc = 3 ∧ (fa.isInt && fb.isInt && fa.scaled == 0 && fb.scaled == 0) = false then none
    else some (if fa.width = 16 ∨ fb.width = 16 then 16 else 32)
  else if (fa.width = 32 ∧ fb.width = 32 ∧ acc = 1) ∨ (fa.width = 64 ∧ fb.width = 64 ∧ acc = 2) then some 1
  else none

/-- A value rounded into the accumulator by RNE, with the canonical NaN and without saturation. -/
def Fmt.accCode (f : Fmt) (v : Value) : Nat :=
  match v with
  | .nan .. => f.canonicalNaN
  | .inf s => f.infCode s
  | .fin s m => (f.round 0 false false 0 s m).code

def negValue : Value → Value
  | .nan s f w g => .nan s f w g
  | .inf s => .inf (!s)
  | .fin s m => .fin (!s) m

/-- The exact sum of a run's products; zero only when every product is, and negative only when every product is a negative
zero. -/
def runSum : List Value → Value
  | [] => .fin false (Rat'.ofInt 0)
  | p :: ps => ps.foldl (addValue false) p

/-- One accumulator element after a run of signed sum `s`: a run of one infinity gives that infinity, whatever infinity the
accumulator holds (DEDUCED, log entry 78), and a NaN accumulator stays (R91). -/
def addRun (f : Fmt) (c : Nat) (s : Value) : Nat :=
  match f.decode c, s with
  | .inf _, .inf t => f.infCode t
  | v, s => f.accCode (addValue false v s)

/-- One accumulator element over its runs of products. -/
def accumulate (f : Fmt) (sub : Bool) (c : Nat) (runs : List (List Value)) : Nat :=
  runs.foldl (fun c ps => addRun f c (if sub then negValue (runSum ps) else runSum ps)) c

/-- The k of each run. -/
def runsOf (k rl : Nat) : List (List Nat) :=
  (List.range ((k + rl - 1) / rl)).map (fun r => (List.range (min rl (k - r * rl))).map (fun i => r * rl + i))

/-- What a multiply reads: descriptors, entries, and the scratchpads of the operands with their full extents. -/
structure Multiply where
  a  : Operand
  b  : Operand
  fa : Fmt
  fb : Fmt
  ma : List Host.Cell
  mb : List Host.Cell
  m  : Nat
  n  : Nat

/-- The new code of element (I, J) from its old one (R284). -/
def Multiply.elem (x : Multiply) (T : Tile) (mode I J c : Nat) : Nat :=
  let c := if mode = 1 then 0 else c
  if T.acc = 3 then
    let s := (List.range x.a.k).foldl (fun (s : Int) k => s + x.a.int x.fa x.m x.ma I k * x.b.int x.fb x.n x.mb J k) 0
    wrapTo 32 (if mode = 2 then (c : Int) - s else (c : Int) + s)
  else
    let rl := (runLength x.fa x.fb T.acc).getD 1
    accumulate T.fmt (mode == 2) c ((runsOf x.a.k rl).map (fun ks =>
      ks.map (fun k => mulValue (x.a.value x.fa x.m x.ma I k) (x.b.value x.fb x.n x.mb J k))))

/-! ### Online softmax (R292) -/

/-- Whether a code is a NaN or +infinity. -/
def spoilsRow (c : Nat) : Bool :=
  match binary32.decode c with
  | .nan .. => true
  | .inf s => !s
  | .fin .. => false

/-- The larger of two binary32 codes; +0 is above -0 (R184). -/
def max32 (a b : Nat) : Nat :=
  let x := binary32.decode a
  let y := binary32.decode b
  if ltValue x y then b else if eqValue x y && x.neg && !y.neg then b else a

/-- 2^(c - m) rounded once, for codes with c at most m and m finite. -/
def exp2Diff (c m : Nat) : Nat :=
  match binary32.decode c, binary32.decode m with
  | .fin s x, .fin t y => (binary32.round 0 false false 0 false (exp2Exact ((signedRat s x).sub (signedRat t y)))).code
  | _, _ => 0

/-- The updated row and its MX, SM and AL. -/
def softmaxRow (mx sm : Nat) (row : List Nat) : List Nat × Nat × Nat × Nat :=
  let nan := binary32.canonicalNaN
  if spoilsRow mx || row.any spoilsRow then (row.map (fun _ => nan), nan, nan, nan)
  else
    let mn := row.foldl max32 mx
    let (al, cs) := if mn = negInf32 then (one32, row.map (fun _ => 0)) else (exp2Diff mx mn, row.map (fun c => exp2Diff c mn))
    let sum := cs.foldl (fun v c => addValue false v (binary32.decode c)) (mulValue (binary32.decode al) (binary32.decode sm))
    (cs, mn, binary32.accCode sum, al)

def Group.softmax (g : Group) (T : Tile) (G : Gang) : Group :=
  (T.allRows G).foldl (fun (g : Group) I =>
    let (mx, sm, _) := g.sideRow T G I
    let (row, mx, sm, al) := softmaxRow mx sm (g.tileRow T G I)
    (g.putTileRow T G I row).putSideRow T G I mx sm al) g

/-! ### Drains (R295, R296) -/

/-- A drain descriptor. -/
structure Drain where
  rows : Nat
  row0 : Nat
  tr   : Bool
  sat  : Bool
  rnd  : Nat
  fmt  : Nat
  off  : Nat
  deriving DecidableEq, Repr

def Drain.of (d : Dword) : Drain :=
  let x := d.toNat
  { rows := field x 40 8 + 1, row0 := field x 32 8, tr := x.testBit 25, sat := x.testBit 24, rnd := field x 21 3,
    fmt := field x 17 4, off := field x 0 17 * 64 }

/-- Lines and elements of a line. -/
def Drain.lines (d : Drain) (T : Tile) : Nat × Nat := if d.tr then (T.cols, d.rows) else (d.rows, T.cols)

/-- The end of the lines, and of the scale codes. -/
def Drain.end_ (d : Drain) (T : Tile) (f : Fmt) (soff : Nat) : Nat :=
  let (lines, n) := d.lines T
  let e := d.off + (lines - 1) * linePitch n f.width + (n * f.width + 7) / 8
  if f.scaled = 0 then e else max e (soff + (lines - 1) * scalePitch n f.block + n / f.block)

/-- The row and column of element `n` of line `l`, within the part. -/
def Drain.place (d : Drain) (l n : Nat) : Nat × Nat := if d.tr then (d.row0 + n, l) else (d.row0 + l, n)

/-- An element as a value; an int32 element is its integer. -/
def Tile.value (T : Tile) (c : Nat) : Value :=
  if T.acc = 3 then Value.ofRat false (Rat'.ofInt (signedOf 32 c)) else T.fmt.decode c

/-- The magnitude of an element as AMAX holds it; a NaN is the canonical one. -/
def Tile.magnitude (T : Tile) (c : Nat) : Nat :=
  if T.acc = 3 then (signedOf 32 c).natAbs
  else match T.fmt.decode c with
    | .nan .. => T.fmt.canonicalNaN
    | _ => c % 2 ^ (T.fmt.width - 1)

/-- The larger of two values of AMAX: the codes of magnitudes rank as numbers, the canonical NaN above every other. -/
def amaxOf (xs : List Nat) (a : Nat) : Nat := xs.foldl max a

/-- The codes of the window's elements. -/
def Drain.window (d : Drain) (T : Tile) (m : List Host.Cell) : List Nat :=
  (List.range d.rows).flatMap (fun i => (List.range T.cols).map (T.elem m (d.row0 + i)))

/-- The 24-bit draw of an element of the whole tile (R296). -/
def drainDraw (seed : Dword) (linear dseq t I J : Nat) : Nat :=
  srDraw seed (BitVec.ofNat 64 linear) (BitVec.ofNat 64 (2 ^ 63 + dseq * 2 ^ 44 + t * 2 ^ 40 + I * 2 ^ 20 + J))

/-- One packed line of codes: the bytes from its first element. -/
def packLine (bits : Nat) (codes : List Nat) : List Byte :=
  let x := codes.foldr (fun c a => c % 2 ^ bits + a * 2 ^ bits) 0
  bytesLE ((codes.length * bits + 7) / 8) x

/-- The codes and the scale codes of one line. -/
def Drain.line (d : Drain) (T : Tile) (f : Fmt) (draw : Nat → Nat → Nat) (m : List Host.Cell) (l : Nat) : List Nat × List Nat :=
  let n := (d.lines T).2
  let at_ := fun i => d.place l i
  let vals := (List.range n).map (fun i => T.value (T.elem m (at_ i).1 (at_ i).2))
  let scales := if f.scaled = 0 then [] else
    (List.range (n / f.block)).map (fun b => (blockScale f ((vals.drop (b * f.block)).take f.block)).1)
  let codes := (List.range n).map (fun i =>
    let x := vals.getD i (.fin false (Rat'.ofInt 0))
    let x := if f.scaled = 0 then x else (scaleDown x (f.scaleValue (scales.getD (i / f.block) 0))).1
    (f.convert d.rnd d.sat false (draw (at_ i).1 (at_ i).2) x).code)
  (codes, scales)

/-- A line and its scale codes written into a scratchpad. A line is whole bytes, since it has a multiple of 8 elements. -/
def Drain.putLine (d : Drain) (T : Tile) (f : Fmt) (soff : Nat) (sp : List Host.Cell) (l : Nat) (x : List Nat × List Nat) :
    List Host.Cell :=
  let n := (d.lines T).2
  let a := d.off + l * linePitch n f.width
  let sp := memPut sp a (packLine f.width x.1)
  if f.scaled = 0 then sp else memPut sp (soff + l * scalePitch n f.block) (x.2.map (BitVec.ofNat 8))

/-- The drain of one part at a span position. -/
def Group.drainPart (g : Group) (T : Tile) (t : Nat) (G : Gang) (pos : Nat) (d : Drain) (f : Fmt) (soff : Nat) (seed : Dword) :
    Group :=
  let m := g.tilesAt pos
  let part := pos - G.first
  let dseq := T.dseq m
  let draw := fun i j => drainDraw seed g.linear dseq t (part / G.gc * T.rows + i) (part % G.gc * T.cols + j)
  let sp := (List.range (d.lines T).1).foldl (fun sp l => d.putLine T f soff sp l (d.line T f draw m l)) (g.spadAt pos)
  let m := T.setAmax m (amaxOf ((d.window T m).map T.magnitude) (T.amax m))
  let m := memSetNat m (T.base + 8) 4 ((dseq + 1) % 2 ^ 19)
  (g.setTiles pos m).setSpad pos sp

/-! ### The operations (R284, R285, R288 to R296) -/

/-- A product or a quotient in the accumulator's format. -/
def Fmt.accMul (f : Fmt) (c : Nat) (x : Value) : Nat := f.accCode (mulValue (f.decode c) x)
def Fmt.accDiv (f : Fmt) (c : Nat) (x : Value) : Nat := f.accCode (divValue (f.decode c) x).1

/-- An element times a factor's code (R291). -/
def Tile.scaled (T : Tile) (c f : Nat) : Nat :=
  if T.acc = 3 then wrapTo 32 (signedOf 32 c * signedOf 32 f) else T.fmt.accMul c (T.fmt.decode f)

/-- `TMMA` and `TMMAX` on one tile or gang. -/
def Group.multiply (g : Group) (T : Tile) (G : Gang) (x : Multiply) (mode : Nat) (smx : Bool) : Group :=
  let g := g.mapRows T G (fun I row => (List.range row.length).map (fun J => x.elem T mode I J (row.getD J 0)))
  if smx then g.softmax T G else g

/-- The operation on the tile or gang at a span position; `kd` declares the tiles. -/
def TileOp.on (o : TileOp) (kd : KernelDesc) (T : Tile) (G : Gang) (g : Group) : Group :=
  match o.kind with
  | .mma a b fa fb mode smx pa pb =>
    let A := Operand.of a
    let B := Operand.of b
    g.multiply T G { a := A, b := B, fa := Fmt.ofWord fa, fb := Fmt.ofWord fb, ma := g.spadAt (pa.getD G.first),
                     mb := g.spadAt (pb.getD G.first), m := G.gr * A.ext, n := G.gc * B.ext } mode smx
  | .zero =>
    let g := g.mapRows T G (fun _ row => row.map (fun _ => 0))
    g.mapParts G (fun _ m => T.setAmax (memPut m (T.sideAt 0) T.freshSide) 0)
  | .fill v => g.mapRows T G (fun _ row => row.map (fun _ => v.toNat))
  | .scale f mode at_ pos =>
    let sp := g.spadAt pos
    let factor := fun (n : Nat) => if mode = 0 then f.toNat else memNat sp (at_ + n * T.width) T.width
    g.mapRows T G (fun I row => (List.range row.length).map (fun J => T.scaled (row.getD J 0) (factor (if mode = 2 then J else I))))
  | .smx src srcGang pos divide =>
    match kd.tile? src with
    | none => g
    | some S =>
      let H := Gang.of srcGang pos
      g.mapRows T G (fun I row =>
        let (_, sm, al) := g.sideRow S H I
        row.map (fun c => if divide then T.fmt.accDiv c (binary32.decode sm) else T.fmt.accMul c (binary32.decode al)))
  | .drain d soff fw seed _ =>
    G.parts.foldl (fun (g : Group) p => g.drainPart T o.t G p (Drain.of d) (Fmt.ofWord fw) soff seed) g
  | .sidew mx sm row =>
    (T.allRows G).foldl (fun (g : Group) I =>
      if row = 0xFFFFFFFF ∨ row.toNat = I then g.putSideRow T G I mx.toNat sm.toNat one32 else g) g
  | .gang word => o.members.foldl (fun (g : Group) m => g.setTiles m.2 (memSetNat (g.tilesAt m.2) (T.base + 12) 4 word)) g

/-- What an operation leaves in its group: on the gang once, or at each of its members (R285, R290). -/
def TileOp.effect (o : TileOp) (kd : KernelDesc) (g : Group) : Group :=
  match kd.tile? o.t with
  | none => g
  | some T =>
    match o.kind with
    | .gang _ => o.on kd T (Gang.of 0 0) g
    | .smx _ _ pos _ => o.on kd T (Gang.of o.gang pos) g
    | _ =>
      if o.gang ≠ 0 then o.on kd T (Gang.of o.gang 0) g
      else o.members.foldl (fun (g : Group) m => o.on kd T (Gang.of 0 m.2) g) g

end Sys2Proof.Machine
end

