-- ==== Sys2Proof/Machine/Tile.lean ====
section
/-! DEFINITION. Class 0x8, the tile engine (R277 to R301). Each operation takes effect at one instant, when it is the oldest on
every engine that performs it (log entry 24). -/

namespace Sys2Proof.Machine

/-! ### Tiles as an instruction names them -/

/-- `BOUNDS` with a cause of R280. -/
def tileFault (cause : Nat) : Stop := wholeTrap .bounds cause 0

/-- The gang word of a tile; part (0, 0) stands on position 0. -/
def Group.gangWord (g : Group) (T : Tile) : Nat := T.gang (g.tilesAt 0)

/-- A tile that an instruction names, with its gang word. -/
structure Named where
  tile : Tile
  word : Nat

def Issue.tileNamed (I : Issue) (n : Nat) : Option Named :=
  (I.grid.kd.tile? n).map (fun T => { tile := T, word := I.group.gangWord T })

/-- The parts as the issuer sees them. -/
def Issue.gangOf (I : Issue) (w : Nat) : Gang := Gang.of w I.warp.pos

/-- Cause 7: a ganged tile named on a core outside its gang. -/
def Issue.outsideGang (I : Issue) (w : Nat) : Bool :=
  w != 0 && decide ((I.gangOf w).gr * (I.gangOf w).gc ≤ I.warp.pos)

/-- The cores, with their span positions, of some positions. -/
def Group.membersAt (g : Group) (ps : List Nat) : List (Nat × Nat) := ps.map (fun p => (g.coreAt p, p))

/-- The scratchpad's size (R229). -/
def Issue.spadBytes (I : Issue) : Nat := I.grid.kd.sp * 65536

/-! ### Queueing (R278) -/

/-- Operations on the engine of a core. -/
def State.engineOps (s : State) (core : Nat) : List TileOp := s.engines.filter (fun o => o.members.any (fun m => m.1 == core))

/-- The cores whose engine queue is full. -/
def State.fullEngines (s : State) (cores : List Nat) : List Nat := cores.filter (fun c => decide (16 ≤ (s.engineOps c).length))

/-- A tile instruction: it is not ready while an engine that must accept it is full; else it runs its checks and queues an
operation. -/
def Issue.queueOp (I : Issue) (t gang : Nat) (ps : List Nat) (check : Option Stop) (kind : TileKind) : Except Stop Done :=
  let members := I.group.membersAt ps
  let full := I.st.fullEngines (members.map Prod.fst)
  if full.isEmpty = false then .error (.wait I.st (.engine full))
  else match check with
    | some e => .error e
    | none =>
      let op : TileOp :=
        { uid := I.st.fresh, warp := I.ref.warp, group := I.group.uid, from_ := I.warp.core, t := t, gang := gang, kind := kind,
          members := members }
      .ok { st := { I.st with engines := I.st.engines ++ [op], fresh := I.st.fresh + 1 } }

/-- Causes 4 and 7 around the other checks of an instruction (R280); `early` are cause 1, `ILLFMT` and cause 3. -/
def Issue.onTile (I : Issue) (t : Nat) (body : Named → Except Stop Done) : Except Stop Done :=
  match I.tileNamed t with
  | none => .error (tileFault 4)
  | some N => body N

/-- The first failing check. -/
def firstFault (cs : List (Bool × Stop)) : Option Stop := (cs.find? (fun c => c.1)).map Prod.snd

/-! ### Multiplying (R281 to R285, R290) -/

/-- The entry of an `ILLFMT` that names none: a free value, or the one operand at fault (log entry 25). -/
def Issue.freeEntry (I : Issue) : Nat := (Config.freeWord I.st.draws 7).toNat % 16

/-- `ILLFMT` for an entry that is not legal. -/
def Issue.illegal (I : Issue) (n : Nat) : Option Stop :=
  if fmtLegal (I.ctx.entry n) then none else some (illfmt (fmtStatus (I.ctx.entry n)) n)

/-- A scale request that R283 refuses. -/
def scaleRefused (o : Operand) (f : Fmt) (acc : Nat) : Bool :=
  (f.scaled != 0 && o.sg != 0) || (decide (32 ≤ f.width) && o.sg != 0) || (acc == 3 && o.hasScale f)

/-- Cause 1 for a descriptor (R281). -/
def Operand.reserved (o : Operand) (f : Fmt) (multi : Bool) : Bool :=
  (!multi && (o.src != 0 || o.mcm != 0)) || (!o.hasScale f && o.soff != 0)

/-- Cause 3: K is not a multiple of the scale block. -/
def Operand.unevenBlock (o : Operand) (f : Fmt) : Bool := o.hasScale f && (o.block f).elim false (fun b => o.k % b != 0)

/-- Cause 5 (R280, R285). -/
def sourceFault (A B : Operand) (span : Nat) (ganged : Bool) : Bool :=
  decide (span ≤ A.src) || decide (span ≤ B.src) || decide (2 ^ span ≤ A.mcm) || decide (2 ^ span ≤ B.mcm) ||
    (A.mcm != 0 && B.mcm != 0) || (ganged && (A.mcm != 0 || B.mcm != 0)) || (A.mcm != 0 && B.src != 0) ||
    (B.mcm != 0 && A.src != 0)

/-- The checks of `TMMA` and `TMMAX` after cause 4 (R280). When the entries of both operands are illegal the record names A's, which the
spec leaves open (log entry 25). -/
def Issue.multiplyCheck (I : Issue) (N : Named) (A B : Operand) (smx multi : Bool) : Option Stop :=
  let fa := Fmt.ofWord (I.ctx.entry A.fmt)
  let fb := Fmt.ofWord (I.ctx.entry B.fmt)
  let G := I.gangOf N.word
  if A.reserved fa multi || B.reserved fb multi then some (tileFault 1)
  else match (I.illegal A.fmt).or (I.illegal B.fmt) with
    | some e => some e
    | none => firstFault [
        ((runLength fa fb N.tile.acc).isNone, illfmt 0 I.freeEntry),
        (scaleRefused A fa N.tile.acc, illfmt 0 A.fmt),
        (scaleRefused B fb N.tile.acc, illfmt 0 B.fmt),
        (smx && N.tile.acc != 1, illfmt 0 I.freeEntry),
        (A.ext != N.tile.rows || B.ext != N.tile.cols || A.k != B.k || A.unevenBlock fa || B.unevenBlock fb, tileFault 3),
        (multi && sourceFault A B I.group.span (N.word != 0), tileFault 5),
        (I.outsideGang N.word, tileFault 7),
        (decide (I.spadBytes < A.end_ fa (G.gr * A.ext)) || decide (I.spadBytes < B.end_ fb (G.gc * B.ext)), tileFault 2)]

/-- The span positions in a mask. -/
def positionsOf (mask span : Nat) : List Nat := (List.range span).filter (fun p => mask.testBit p)

/-- The span positions whose engines perform a multiply (R284, R285, R290). -/
def Issue.mulPositions (I : Issue) (N : Named) (a b : BitVec 6) (multi : Bool) : List Nat :=
  let mcm := if multi then (Operand.of (I.view.getPair a.toNat)).mcm ||| (Operand.of (I.view.getPair b.toNat)).mcm else 0
  if N.word ≠ 0 then (I.gangOf N.word).parts else if mcm = 0 then [I.warp.pos] else positionsOf mcm I.group.span

/-- `TMMA` and `TMMAX`: who performs the multiply, and whose scratchpads hold the operands. -/
def Issue.multiply (I : Issue) (t : Nat) (a b : BitVec 6) (ctl : Nat) (multi : Bool) : Except Stop Done :=
  I.onTile t (fun N =>
    let da := I.view.getPair a.toNat
    let db := I.view.getPair b.toNat
    let A := Operand.of da
    let B := Operand.of db
    let here := some I.warp.pos
    let pa := if !multi then here else if B.mcm ≠ 0 then none else some A.src
    let pb := if !multi then here else if A.mcm ≠ 0 then none else some B.src
    let smx := ctl.testBit 2
    I.queueOp t N.word (I.mulPositions N a b multi) (I.multiplyCheck N A B smx multi)
      (.mma da db (I.ctx.entry A.fmt) (I.ctx.entry B.fmt) (ctl % 4) smx pa pb))

/-- `TMMA` (R284). -/
def execTmma (t : BitVec 4) (a b : BitVec 6) (c : BitVec 3) (s : State) : Host.Outcome State Fault Refusal :=
  runInstr (.tmma t a b c) (fun I => I.multiply t.toNat a b c.toNat false) s

/-- `TMMAX` (R285). -/
def execTmmax (t : BitVec 4) (a b : BitVec 6) (c : BitVec 3) (s : State) : Host.Outcome State Fault Refusal :=
  runInstr (.tmmax t a b c) (fun I => I.multiply t.toNat a b c.toNat true) s

/-! ### Whole-tile operations (R291, R293, R294) -/

/-- An operation on every part of a tile, with the checks that follow cause 7. -/
def Issue.wholeTile (I : Issue) (t : Nat) (N : Named) (before after : List (Bool × Stop)) (kind : TileKind) : Except Stop Done :=
  I.queueOp t N.word (I.gangOf N.word).parts (firstFault (before ++ [(I.outsideGang N.word, tileFault 7)] ++ after)) kind

/-- `TZERO`. -/
def execTzero (t : BitVec 4) (s : State) : Host.Outcome State Fault Refusal :=
  runInstr (.tzero t) (fun I => I.onTile t.toNat (fun N => I.wholeTile t.toNat N [] [] .zero)) s

/-- A value in the accumulator's width. -/
def Issue.accValue (I : Issue) (T : Tile) (a : Nat) : Dword :=
  if T.acc = 2 then I.view.getPair a else (I.view.getS a).setWidth 64

/-- `TFILL`. -/
def execTfill (t : BitVec 4) (a : BitVec 6) (s : State) : Host.Outcome State Fault Refusal :=
  runInstr (.tfill t a) (fun I => I.onTile t.toNat (fun N => I.wholeTile t.toNat N [] [] (.fill (I.accValue N.tile a.toNat)))) s

/-- `TSCALE`: an array of factors stands in the issuing core's scratchpad and is indexed by the rows or columns of the whole
tile. -/
def execTscale (t : BitVec 4) (a b : BitVec 6) (s : State) : Host.Outcome State Fault Refusal :=
  runInstr (.tscale t a b) (fun I => I.onTile t.toNat (fun N =>
    let mode := (I.view.getS b.toNat).toNat
    let at_ := (I.view.getS (b.toNat + 1)).toNat * 64
    let G := I.gangOf N.word
    let n := if mode = 1 then G.gr * N.tile.rows else G.gc * N.tile.cols
    let past := (mode == 1 || mode == 2) && decide (I.spadBytes < at_ + n * N.tile.width)
    I.wholeTile t.toNat N [] [(past, tileFault 2), (decide (2 < mode), tileFault 6)]
      (.scale (I.accValue N.tile a.toNat) mode at_ I.warp.pos))) s

/-- The span positions whose engines perform a `TSMX`: the parts of the tile, then those of the source. -/
def Issue.smxPositions (I : Issue) (N : Named) (a : BitVec 6) : List Nat :=
  let ps := (I.gangOf N.word).parts
  ps ++ (((I.tileNamed ((I.view.getS a.toNat).toNat % 16)).map (fun S => (I.gangOf S.word).parts)).getD []).filter (fun p => !ps.contains p)

/-- `TSMX`: the source's parts take part, since the operation names them too. Of a source tile that is not ganged, each core of a ganged
`t` reads the issuing core's side registers, which the spec leaves open (log entry 116). -/
def execTsmx (t : BitVec 4) (a b : BitVec 6) (s : State) : Host.Outcome State Fault Refusal :=
  runInstr (.tsmx t a b) (fun I => I.onTile t.toNat (fun N =>
    let src := (I.view.getS a.toNat).toNat % 16
    let mode := (I.view.getS b.toNat).toNat
    let S := I.tileNamed src
    let G := I.gangOf N.word
    let sw := (S.map Named.word).getD 0
    let rows := G.gr * N.tile.rows
    let srows := (S.map (fun S => (I.gangOf S.word).gr * S.tile.rows)).getD rows
    I.queueOp t.toNat N.word (I.smxPositions N a)
      (firstFault [
        (decide (16 ≤ (I.view.getS a.toNat).toNat), tileFault 1),
        (N.tile.acc == 3, illfmt 0 I.freeEntry),
        (rows != srows, tileFault 3),
        (I.outsideGang N.word || I.outsideGang sw, tileFault 7),
        (S.isNone || decide (1 < mode), tileFault 6)])
      (.smx src sw I.warp.pos (mode == 1)))) s

/-- `TSIDEW`. -/
def execTsidew (t : BitVec 4) (a b : BitVec 6) (s : State) : Host.Outcome State Fault Refusal :=
  runInstr (.tsidew t a b) (fun I => I.onTile t.toNat (fun N =>
    let row := I.view.getS b.toNat
    let past := row != 0xFFFFFFFF && decide ((I.gangOf N.word).gr * N.tile.rows ≤ row.toNat)
    I.wholeTile t.toNat N [] [(past, tileFault 6)] (.sidew (I.view.getS a.toNat) (I.view.getS (a.toNat + 1)) row))) s

/-! ### Drains (R295) -/

/-- `TDRAIN`. -/
def execTdrain (t : BitVec 4) (a b : BitVec 6) (s : State) : Host.Outcome State Fault Refusal :=
  runInstr (.tdrain t a b) (fun I => I.onTile t.toNat (fun N =>
    let dw := I.view.getPair a.toNat
    let sw := I.view.getPair b.toNat
    let d := Drain.of dw
    let soff := field sw.toNat 0 17 * 64
    let w := I.ctx.entry d.fmt
    let f := Fmt.ofWord w
    let T := N.tile
    let reserved := field dw.toNat 48 16 != 0 || field dw.toNat 26 6 != 0 || decide (5 < d.rnd) || decide (2 ^ 17 ≤ sw.toNat)
    let window := d.rows % 8 != 0 || d.row0 % 8 != 0 || decide (T.rows < d.row0 + d.rows) ||
      (f.scaled != 0 && (d.lines T).2 % f.block != 0)
    let bad := (I.illegal d.fmt).getD (tileFault 1)
    I.wholeTile t.toNat N [(reserved, tileFault 1), ((I.illegal d.fmt).isSome, bad)]
      [(decide (I.spadBytes < d.end_ T f soff), tileFault 2), (window, tileFault 8)]
      (.drain dw soff w I.ctx.srseed []))) s

/-! ### Waiting and reading (R294, R297, R298) -/

/-- Whether an operation names a tile. -/
def TileOp.names (o : TileOp) (t : Nat) : Bool :=
  o.t == t || (match o.kind with | .smx src _ _ _ => src == t | _ => false)

def TileOp.isDrain (o : TileOp) : Bool := match o.kind with | .drain .. => true | _ => false

/-- Whether some operation that a wait awaits is not complete. -/
def State.tileBusy (s : State) (w : Warp) (t : Nat) (own drains : Bool) (upto : Nat) : Bool :=
  s.engines.any (fun o => decide (o.uid < upto) && o.group == w.group && o.names t &&
    (if own then o.warp == w.uid else o.from_ == w.core) && (drains || !o.isDrain))

/-- Waits for earlier operations on a tile, then runs the body. -/
def Issue.afterTile (I : Issue) (t : Nat) (own drains : Bool) (body : Except Stop Done) : Except Stop Done :=
  if !I.frag.granted && I.st.tileBusy I.warp t own drains I.st.fresh then .error (.wait I.st (.tile t own drains I.st.fresh))
  else body

/-- `TWAIT`. Like the other instructions that wait here, it is checked at its issue and not after its wait (R280). -/
def execTwait (t : BitVec 4) (s : State) : Host.Outcome State Fault Refusal :=
  runInstr (.twait t) (fun I => I.onTile t.toNat (fun N =>
    if !I.latched && I.outsideGang N.word then .error (tileFault 7) else I.afterTile t.toNat true true (.ok { st := I.st }))) s

/-- `TSIDER`. -/
def execTsider (t : BitVec 4) (d b : BitVec 6) (s : State) : Host.Outcome State Fault Refusal :=
  runInstr (.tsider t d b) (fun I => I.onTile t.toNat (fun N =>
    let row := (I.view.getS b.toNat).toNat
    let sel := (I.view.getS (b.toNat + 1)).toNat
    let G := I.gangOf N.word
    if !I.latched && I.outsideGang N.word then .error (tileFault 7)
    else if !I.latched && (decide (G.gr * N.tile.rows ≤ row) || decide (1 < sel)) then .error (tileFault 6)
    else
      let (mx, sm, al) := I.group.sideRow N.tile G row
      let x := if sel = 0 then (mx, sm) else (al, 0)
      I.afterTile t.toNat false true
        (.ok { st := I.put ((I.warp.setS d.toNat (BitVec.ofNat 32 x.1)).setS (d.toNat + 1) (BitVec.ofNat 32 x.2)) }))) s

/-- Whether an engine still has an operation other than a drain on the tile before this one, so that this one has not begun. -/
def State.behindOthers (s : State) (o : TileOp) (core : Nat) : Bool :=
  (s.engineOps core).any (fun x => decide (x.uid < o.uid) && x.group == o.group && x.names o.t && !x.isDrain)

/-- The magnitudes that the drains of a tile in flight may have processed: some subset, which no rule fixes (R297). -/
def Issue.processed (I : Issue) (t : Nat) (T : Tile) (G : Gang) (drains : List TileOp) : List Nat :=
  let all := drains.flatMap (fun o => match o.kind with
    | .drain d .. => (G.parts.filter (fun p => !I.st.behindOthers o (I.group.coreAt p))).flatMap (fun p => ((Drain.of d).window T (I.group.tilesAt p)).map T.magnitude)
    | _ => [])
  ((all.zip (List.range all.length)).filter (fun x => (Config.freeWord I.st.draws (1000 * t + x.2)).getLsbD 0)).map Prod.fst

/-- `TAMAXR`: AMAX, with what the drains in flight may have added, and no less than the warp has read before. -/
def execTamaxr (t : BitVec 4) (d : BitVec 6) (s : State) : Host.Outcome State Fault Refusal :=
  runInstr (.tamaxr t d) (fun I => I.onTile t.toNat (fun N =>
    let G := I.gangOf N.word
    let T := N.tile
    if !I.latched && I.outsideGang N.word then .error (tileFault 7)
    else
      let inFlight := I.st.engines.filter (fun o => o.group == I.group.uid && o.t == t.toNat && o.isDrain &&
        o.members.any (fun m => G.parts.contains m.2))
      let seen := inFlight.flatMap (fun o => match o.kind with
        | .drain _ _ _ _ xs => (xs.filter (fun x => x.1 == I.ref.warp)).map Prod.snd
        | _ => [])
      let a0 := amaxOf (G.parts.map (fun p => T.amax (I.group.tilesAt p))) 0
      let m := amaxOf (I.processed t.toNat T G inFlight ++ seen) a0
      let mark := fun (o : TileOp) => match o.kind with
        | .drain x y z u xs => if inFlight.any (fun p => p.uid == o.uid) then { o with kind := .drain x y z u ((I.ref.warp, m) :: xs) } else o
        | _ => o
      let s := I.put (I.warp.setPair d.toNat (BitVec.ofNat 64 m))
      I.afterTile t.toNat false false (.ok { st := { s with engines := s.engines.map mark } }))) s

/-! ### Gangs and fences (R287 to R289, R301) -/

/-- Cause 7 of a binding (R289, R455). -/
def Issue.gangMisuse (I : Issue) (N : Named) (w : Nat) : Bool :=
  let G := Gang.of w 0
  if w.testBit 6 then
    !I.st.feature 2 || decide (I.group.span < G.gr * G.gc) || decide (512 < G.gr * N.tile.rows) ||
      decide (1024 < G.gc * N.tile.cols) || N.word != 0
  else N.word == 0

/-- The fault of a `TGANG` word (R289). -/
def Issue.gangFault (I : Issue) (N : Named) (w : Nat) : Option Stop :=
  if 2 ^ 7 ≤ w ∨ (w.testBit 6 = false ∧ w ≠ 0) then some (tileFault 1)
  else if I.gangMisuse N w then some (tileFault 7)
  else none

/-- The span positions whose engines a `TGANG` binds or unbinds. -/
def gangPositions (N : Named) (w : Nat) : List Nat := (Gang.of (if w.testBit 6 then w else N.word) 0).parts

/-- `TGANG`: an operation on every member that writes its GANG field; the warp waits until all have bound. That it takes an entry of each
member's queue, and is not ready while one is full, is the model's choice: R277 does not list it (log entry 104). -/
def execTgang (t : BitVec 4) (a : BitVec 6) (s : State) : Host.Outcome State Fault Refusal :=
  runInstr (.tgang t a) (fun I => I.onTile t.toNat (fun N =>
    let w := (I.view.getS a.toNat).toNat
    if I.frag.granted then .ok { st := I.st }
    else match I.gangFault N w with
      | some e => .error e
      | none =>
        match I.queueOp t.toNat N.word (gangPositions N w) none (.gang (if w.testBit 6 then w else 0)) with
        | .error e => .error e
        | .ok d => .error (.wait d.st (.tile t.toNat true true d.st.fresh)))) s

/-- The span positions whose engines must accept an instruction's operation (R278). -/
def Issue.enginePositions (I : Issue) (i : Instr) : List Nat :=
  let named := fun (t : BitVec 4) (ps : Named → List Nat) => ((I.tileNamed t.toNat).map ps).getD []
  let whole := fun (N : Named) => (I.gangOf N.word).parts
  match i with
  | .tmma t a b _ => named t (fun N => I.mulPositions N a b false)
  | .tmmax t a b _ => named t (fun N => I.mulPositions N a b true)
  | .tzero t => named t whole
  | .tfill t _ => named t whole
  | .tscale t _ _ => named t whole
  | .tsidew t _ _ => named t whole
  | .tdrain t _ _ => named t whole
  | .tsmx t a _ => named t (fun N => I.smxPositions N a)
  | .tgang t a =>
    named t (fun N => if (I.gangFault N (I.view.getS a.toNat).toNat).isSome then [] else gangPositions N (I.view.getS a.toNat).toNat)
  | _ => []

/-- `TFENCE` (R301): each engine performs its operations one at a time and whole, so a fence finds nothing to hold back. -/
def execTfence (s : State) : Host.Outcome State Fault Refusal :=
  runInstr .tfence (fun I => .ok { st := I.st }) s

/-! ### Completion (R299, R300) -/

/-- The operation that completes next on a core's engine: its oldest, when that is the oldest on every engine that performs
it. -/
def State.tileDue (s : State) (core : Nat) : Option TileOp :=
  match s.engineOps core with
  | [] => none
  | o :: _ =>
    if o.members.all (fun m => ((s.engineOps m.1).head?).elim false (fun x => x.uid == o.uid)) then some o else none

/-- An operation performed: the group's tiles, and after a drain its scratchpads with the queues that they hold. -/
def State.performTile (s : State) (o : TileOp) : State :=
  let s := { s with engines := s.engines.filter (fun x => x.uid != o.uid) }
  match s.group? o.group with
  | none => s
  | some g =>
    match s.kdOf g with
    | none => s
    | some kd =>
      let s := s.setGroup (o.effect kd g)
      if o.isDrain then o.members.foldl (fun s m => s.settleQueues o.group m.2) s else s

/-- TILE_OP_COMPLETE (R299). -/
def execTileOpComplete (core : Nat) (s : State) : Host.Outcome State Fault Refusal :=
  match s.tileDue core with
  | some o => .next (s.performTile o)
  | none => .next s

end Sys2Proof.Machine
end

