-- ==== Sys2Proof/Machine/Place.lean ====
section
/-! DEFINITION. Placement, resumption, attaches and retirement of groups (R103, R276, R330, R351, R365, R368 to R373, R386). -/

namespace Sys2Proof.Machine

/-! ### What a group needs (R368) -/

/-- Warps of a role at first placement: warp `i` at span position `i` mod span. -/
def KernelDesc.firstWarps (kd : KernelDesc) (r : Nat) : List SavedWarp :=
  (List.range (kd.warps.getD r (0, 0)).1).map (fun i =>
    { role := roleOfNat r, index := i, pos := i % kd.span, budget := if r = 2 then kd.budget else 0, pending := 0,
      fenced := Vector.replicate 5 0 })

/-- The warps to place. -/
def Group.wanted (g : Group) (kd : KernelDesc) : List SavedWarp :=
  if g.state = .evicted then g.savedWarps else (List.range 3).flatMap kd.firstWarps

/-- G: the pool granules of a span position. -/
def Group.poolFor (g : Group) (kd : KernelDesc) (ws : List SavedWarp) (p : Nat) : Nat :=
  let sum := (ws.filter (fun w => w.pos == p && w.role == .epilogue)).foldl (fun a w => a + w.budget) 0
  max (max kd.rf ((sum + 63) / 64)) (if g.state = .evicted then g.savedPool.getD p 0 else 0)

/-- The slots of a role on a core, and the lowest free one. -/
def slotsOf (r : Role) : Nat := if r = .epilogue then 64 else 8

def State.usedSlots (s : State) (core : Nat) (r : Role) : List Nat :=
  (s.warps.filter (fun w => w.core == core && w.role == r)).map Warp.slot

def State.freeSlot (s : State) (core : Nat) (r : Role) : Option Nat :=
  (List.range (slotsOf r)).find? (fun n => !(s.usedSlots core r).contains n)

/-- Whether a core can take a span position. -/
def State.coreTakes (s : State) (g : Group) (kd : KernelDesc) (ws : List SavedWarp) (p core : Nat) : Bool :=
  decide ((s.groups.filter (fun x => x.places.any (fun y => y.core == core))).length < 16) &&
    [RoleCode.copy, .maths, .epilogue].all (fun r =>
      decide ((ws.filter (fun w => w.pos == p && w.role == r)).length + (s.usedSlots core r).length ≤ slotsOf r)) &&
    decide (kd.sp + kd.ts + g.poolFor kd ws p ≤ s.freeGranules core)

/-- The cores of a quire that the positions go to: those with the fewest occupied granules, in ascending order. -/
def State.spanCores (s : State) (q span : Nat) : List Nat :=
  sortBy id ((sortBy s.occupied ((List.range 8).map (fun i => 8 * q + i))).take span)

/-- Whether a quire is eligible. -/
def State.quireTakes (s : State) (g : Group) (kd : KernelDesc) (q : Nat) : Bool :=
  let ws := g.wanted kd
  let cores := s.spanCores q kd.span
  (List.range kd.span).all (fun p => s.coreTakes g kd ws p (cores.getD p 0))

/-! ### The choice of a quire (R370) -/

def State.quireLoad (s : State) (q : Nat) : Nat := (List.range 8).foldl (fun a i => a + s.occupied (8 * q + i)) 0

/-- The base order: eligible quires of the partition by load, ties from the quire after the pointer. -/
def State.baseOrder (s : State) (g : Group) (kd : KernelDesc) : List Nat :=
  let P := s.parts.getD g.part Part.reset
  let ring := (List.range 6).map (fun i => (P.pointer + 1 + i) % 6)
  sortBy s.quireLoad (ring.filter (fun q => P.mask.getLsbD q && !s.heldOut.getLsbD q && s.quireTakes g kd q))

/-- The quire chosen: the least load and weight among the first four of the base order. -/
def State.chosenQuire (s : State) (g : Group) (kd : KernelDesc) : Option Nat :=
  let cost := fun q => s.quireLoad q + (s.weights.getD q 0).toNat
  ((s.baseOrder g kd).take 4).foldl (fun (b : Option Nat) q =>
    match b with
    | none => some q
    | some b => if cost q < cost b then some q else some b) none

/-! ### Placing a group -/

/-- The images of queues and barriers at placement (R330, R351). -/
def KernelDesc.freshSpad (kd : KernelDesc) : List Host.Cell :=
  let m := (List.range 16).foldl (fun m q =>
    if kd.queueCfg q = 0 then m else memSetNat m (kd.queueBase q) 4 (kd.queueCfg q)) []
  (List.range 16).foldl (fun m b =>
    let cfg := kd.barrierCfg b
    if cfg = 0 then m
    else
      let members := (List.range 3).foldl (fun a r => if cfg.testBit r then a + (kd.warps.getD r (0, 0)).1 else a) 0
      memSetNat (memSetNat m (kd.barrierBase b) 4 cfg) (kd.barrierBase b + 8) 2 members) m

/-- The mirror of a scratchpad's barriers: CFG alone. R351 gives every image MEM, and R350 makes a mirror's fields other than CFG and
PSEQ zero, which the model follows (log entry 113). -/
def KernelDesc.mirrorSpad (kd : KernelDesc) : List Host.Cell :=
  (List.range 16).foldl (fun m b => if kd.barrierCfg b = 0 then m else memSetNat m (kd.barrierBase b + 8) 2 0) kd.freshSpad

/-- A warp placed on its core, in the lowest free slot of its role. For its age on a port (R110) a warp starts when it is placed, and
warps placed together start in the order copy, maths, epilogue, each role by index (log entry 75). -/
def State.placeWarp (s : State) (g : Group) (grid : Grid) (x : SavedWarp) : State :=
  let core := g.coreAt x.pos
  let pc := codeAddress (grid.code + BitVec.ofNat 64 (grid.kd.entry.getD (roleNat x.role) 0).toNat).toNat
  let w := Warp.fresh s.fresh g.uid x.role x.index core ((s.freeSlot core x.role).getD 0) x.pos grid.mode s.fresh x.budget pc
  { s with warps := s.warps ++ [{ w with pending := x.pending, fenced := x.fenced }], fresh := s.fresh + 1 }

/-- Places a group on a quire, whose headbox die 0's directs. A Pending group starts afresh; an evicted one waits for its restore. -/
def State.placeOn (s : State) (g : Group) (grid : Grid) (q : Nat) : State :=
  let kd := grid.kd
  let ws := g.wanted kd
  let cores := s.spanCores q kd.span
  let again := g.state == .evicted
  let places := (List.range kd.span).map (fun p =>
    { core := cores.getD p 0, granules := g.poolFor kd ws p,
      spad := if again then [] else if p = 0 then kd.freshSpad else kd.mirrorSpad,
      tiles := if again then [] else kd.tileStore : Place })
  let g' : Group := { g with
    state := if again then .resumed else .placed
    places := places
    placedAt := s.fresh
    resumable := none
    preempt := []
    hungRaised := false
    hungSince := none }
  let P := s.parts.getD g.part Part.reset
  let s := s.direct (q / 3)
  let s := { s.setGroup g' with fresh := s.fresh + 1, parts := s.parts.setIfInBounds g.part { P with pointer := q } }
  let s := ws.foldl (fun s x => s.placeWarp g' grid x) s
  let s := s.releasePressed g.uid
  if again then s
  else nextGroup (grid.killed.length + 1) (s.setGrid { grid with state := .running }) grid.uid

/-! ### The order of attempts (R369) -/

/-- Whether a group's context lets it be placed. -/
def State.mayPlace (s : State) (g : Group) : Bool := (s.ctxOf g).elim false (fun c => c.state == .active && !c.saving)

/-- Where an unplaced group stands in its priority: resumable groups first, then Pending ones in admission order. -/
def Group.rank (g : Group) : Nat :=
  match g.resumable with
  | some n => n
  | none => 2 ^ 64 + g.grid * 2 ^ 33 + g.linear

/-- The unplaced groups of a partition and priority, first to be placed first. -/
def State.unplacedAt (s : State) (part prio : Nat) : List Group :=
  sortBy Group.rank (s.groups.filter (fun g => g.part == part && g.unplaced && s.mayPlace g &&
    ((s.grid? g.grid).elim false (fun x => x.prio == prio))))

/-- Whether a group has been unplaced longer than its context's EVTH. -/
def State.overdue (s : State) (g : Group) : Bool := s.olderThan g.unplacedAt (((s.ctxOf g).map (fun c => c.evth.toNat)).getD 0)

/-- Whether a recorded signal of an evicted group lets its `SIGWAIT` go on (R385 code 5): the state that the read leaves then. A
read that does not leaves none (log entry 84). -/
def State.savedSignal (s : State) (g : Group) (w : Wait) : Option State :=
  match w, s.ctxOf g with
  | .signal addr val, some c =>
    match s.headboxXlat c .read addr.toNat with
    | .ok key => if val.toNat ≤ memNat s.mem key 8 then some (s.headboxWalk c .read addr.toNat key) else none
    | .stalled _ => none
    | _ => some s
  | _, _ => none

/-- The signals that evicted groups of a partition wait for are read. -/
def State.readSignals (s : State) (part : Nat) : State :=
  (s.groups.filter (fun g => g.part == part && g.state == .evicted && g.resumable.isNone && s.mayPlace g)).foldl
    (fun s g => (g.savedWaits.findSome? (s.savedSignal g)).elim s (fun s => s.makeResumable g.uid)) s

/-- Placements at one priority, in order, until a group does not fit, or die 0's headbox cannot direct its placement (R13): the state,
and that group. -/
def placeAll : Nat → State → Nat → Nat → State × Option Group
  | 0, s, _, _ => (s, none)
  | fuel + 1, s, part, prio =>
    match s.unplacedAt part prio with
    | [] => (s, none)
    | g :: _ =>
      match s.grid? g.grid with
      | none => (s, none)
      | some grid =>
        match s.chosenQuire g grid.kd with
        | none => (s, some g)
        | some q => if s.mayDirect (q / 3) then placeAll fuel (s.placeOn g grid q) part prio else (s, some g)

/-- What a failed attempt for `u` leads to: an eviction (R378), a pre-emption request (R380), or the end of one (R385). -/
def State.attemptFailed (s : State) (part : Nat) (u : Group) : State :=
  let s := if (s.residents part).isEmpty then s.releasePressed u.uid else s
  match s.longestWaiting part with
  | some g => s.beginEviction g.uid
  | none =>
    if s.overdue u && !(s.residents part).any (fun g => g.state == .waiting) then
      match sortBy Group.placedAt (s.residents part) with
      | g :: _ => s.requestPreempt g.uid (some u.uid)
      | [] => s
    else s

/-- Whether some quire takes a group. -/
def State.fits (s : State) (u : Group) : Bool := (s.grid? u.grid).any (fun grid => (s.chosenQuire u grid.kd).isSome)

/-- The priorities in turn; a group long unplaced holds back the lower ones (R369), and so does one whose placement waits for link 0. -/
def attemptFrom : List Nat → State → Nat → State
  | [], s, _ => s
  | prio :: rest, s, part =>
    match placeAll 768 s part prio with
    | (s, none) => attemptFrom rest s part
    | (s, some u) =>
      if s.fits u then s
      else
        let s' := s.attemptFailed part u
        if (s.unplacedAt part prio).any s.overdue then s' else attemptFrom rest s' part

/-- PLACEMENT_ATTEMPT. -/
def execPlacementAttempt (part : Nat) (s : State) : Host.Outcome State Fault Refusal :=
  .next (attemptFrom [0, 1, 2, 3] (s.readSignals part) part)

/-! ### Restoring a group (R386) -/

/-- The offset of a group's record, from its directory entry. -/
def State.recordOffset (s : State) (c : Ctx) (saved : Nat × Nat × Nat) : Nat := memNat s.mem (c.savebase.toNat + dirEntry saved.2.2) 8

/-- The record of a group as it stands: the headbox of a die reads its directory entry, and then the bytes at that offset; none until
it can. -/
def State.readRecord (s : State) (c : Ctx) (die : Nat) (saved : Nat × Nat × Nat) : Option (List Host.Cell × State) :=
  let o := s.recordOffset c saved
  ((s.saveAccess c die (dirEntry saved.2.2) 8 false).bind (fun s => s.saveAccess c die o saved.2.1 false)).map (fun s =>
    (memSlice s.mem (c.savebase.toNat + o) saved.2.1, s))

/-- The warp parts of a record: for each warp of the group, where its part starts. -/
def partOffsets (m : List Host.Cell) : Nat → List SavedWarp → List (SavedWarp × Nat)
  | _, [] => []
  | a, w :: ws => (w, a) :: partOffsets m (a + memNat m (a + 4) 4) ws

/-- The offset of each warp's part. -/
def Group.partsOf (g : Group) (kd : KernelDesc) (m : List Host.Cell) : List (SavedWarp × Nat) :=
  partOffsets m (memNat m (64 + 8 * (kd.span - 1)) 8 + kd.sectionBytes) g.savedWarps

/-- The part at an offset. -/
def partSlice (m : List Host.Cell) (a : Nat) : List Host.Cell := memSlice m a (12736 + 128 * 128)

/-- Whether a record breaks R386. -/
def Group.badRecord (g : Group) (kd : KernelDesc) (m : List Host.Cell) : Bool :=
  badHeader m kd.span || (g.partsOf kd m).any (fun x => badPart (memSlice m x.2 (memNat m (x.2 + 4) 4)) x.1.role)

/-- The storage of the span positions read back. -/
def Group.restoredPlaces (g : Group) (kd : KernelDesc) (m : List Host.Cell) : List Place :=
  (g.places.zip (List.range g.span)).map (fun x =>
    let a := memNat m (64 + 8 * x.2) 8
    { x.1 with spad := memSlice m (a + 64) (kd.sp * 65536), tiles := memSlice m (a + 64 + kd.sp * 65536) (kd.ts * 65536) })

/-- The locks that a record holds on each core, and whether another group holds one of them (R235). -/
def State.locksFree (s : State) (g : Group) (ws : List Warp) : Bool :=
  ws.all (fun w => w.locks.all (fun l =>
    !s.warps.any (fun x => x.group != g.uid && x.core == w.core && x.locks.any (fun y => lockOf y.2 == lockOf l.2))))

/-- The warps of a resumed group with their parts. -/
def State.restoredWarps (s : State) (g : Group) (c : Ctx) (kd : KernelDesc) (m : List Host.Cell) : List Warp :=
  (g.partsOf kd m).filterMap (fun x =>
    ((s.warpsOf g).find? (fun w => w.role == x.1.role && w.index == x.1.index)).map (fun w =>
      w.restored c g.uid (partSlice m x.2)))

/-- The live records of a group name its new fragments. -/
def Ctx.rename (c : Ctx) (gid : Nat) (ws : List Warp) : Ctx :=
  { c with live := c.live.map (fun l =>
      if l.group = gid ∧ l.frag.isSome = true then
        { l with frag := some ((ws.findSome? (fun w => (w.frags.find? (fun f => f.wait == .parked l.seq)).map (fun f =>
            { warp := w.uid, frag := f.id : FragRef }))).getD { warp := 0, frag := 0 }) }
      else l) }

/-- Kills held for a group take effect (R405); they stand until every warp that they name has ended. -/
def State.applyKills (s : State) (g : Group) : State :=
  let s := g.kills.foldl (fun s k =>
    match s.warpOfKill g.uid k with
    | some w => s.endWarp w.uid
    | none => s) s
  if g.kills.isEmpty then s
  else match s.group? g.uid with
    | none => s
    | some g => s.setGroup { g with kills := [] }

/-- Answers held for a group take effect in the order in which they came (R402, R403). -/
def State.applyHeld (s : State) (g : Group) : State :=
  match s.ctxOf g with
  | none => s
  | some c =>
    let mine := fun (q : BitVec 24) => c.live.any (fun l => l.seq == q && l.group == g.uid && l.frag.isSome)
    let held := c.answers.filter (fun a => mine a.1)
    let s := s.setCtx { c with
      answers := c.answers.filter (fun a => !mine a.1)
      live := c.live.filter (fun l => !held.any (fun a => a.1 == l.seq)) }
    held.foldl (fun s a =>
      match (c.live.find? (fun l => l.seq == a.1)).bind Live.frag with
      | some r => s.applyAnswer r a.1 a.2
      | none => s) s

/-- A resumed group with its storage, its warps and its tags back (R386 steps 1 to 3). -/
def State.restoreGroup (s : State) (g : Group) (c : Ctx) (ws : List Warp) (places : List Place) : State :=
  let top := ws.foldl (fun a w => (List.range 16).foldl (fun a n => max a (w.slot? n).tagSeq) a) 0
  let cores := g.places.map Place.core
  let s := ws.foldl State.setWarp s
  let s := { s with tagSeq := Vector.ofFn (fun i =>
    let n := s.tagSeq.getD i.val 0
    if cores.contains i.val then BitVec.ofNat 32 (max n.toNat top) else n) }
  (s.setCtx (c.rename g.uid ws)).setGroup { g with
    state := .running, places := places, saved := none, savedWarps := [], savedPool := [], savedWaits := [] }

/-- GROUP_RESTORE: the group's storage, locks, warps, kills and answers return; a record that breaks R386 ends the context. -/
def execGroupRestore (gid : Nat) (s : State) : Host.Outcome State Fault Refusal :=
  match s.group? gid with
  | none => .next s
  | some g =>
    match s.ctxOf g, s.grid? g.grid, g.saved with
    | some c, some grid, some saved =>
      if g.state ≠ .resumed ∨ c.state ≠ .active then .next s
      else match s.readRecord c g.headboxDie saved with
        | none => .next s
        | some (m, read) =>
          if g.badRecord grid.kd m then .next (read.machineCheck g.part g.ctx (c.savebase.toNat + s.recordOffset c saved))
          else
            let ws := s.restoredWarps g c grid.kd m
            if s.locksFree g ws = false then .next s
            else match (read.restoreGroup g c ws (g.restoredPlaces grid.kd m)).freeRecord g with
              | none => .next s
              | some s => .next ((s.applyKills g).applyHeld g)
    | _, _, _ => .next s

/-! ### Attaches (R373) -/

/-- Whether a position has a slot, and steps or a granule, for one more warp of a role. -/
def State.attachFits (s : State) (g : Group) (kd : KernelDesc) (r : Role) (p : Nat) : Bool :=
  (s.freeSlot (g.coreAt p) r).isSome &&
    (r != .epilogue || decide (kd.budget ≤ s.unreserved g p) || decide (0 < s.freeGranules (g.coreAt p)))

/-- ATTACH_SERVED. The request served is pending no more, so waits on the other cores may be orphaned (R341). -/
def execAttachServed (gid : Nat) (r : RoleCode) (s : State) : Host.Outcome State Fault Refusal :=
  match s.group? gid with
  | none => .next s
  | some g =>
    match s.grid? g.grid with
    | none => .next s
    | some grid =>
      let n := g.pend.getD (roleNat r) 0
      if n = 0 ∨ (g.state ≠ .running ∧ g.state ≠ .waiting) then .next s
      else match (List.range g.span).find? (s.attachFits g grid.kd r) with
        | none => .next s
        | some p =>
          let s := s.setGroup { g with pend := setAt g.pend (roleNat r) (n - 1) }
          let s := if r = .epilogue then
              match s.group? gid with
              | some g => (s.growPool g p grid.kd.budget).1
              | none => s
            else s
          let used := (s.warps.filter (fun w => w.group == gid && w.role == r)).map Warp.index
          let index := ((List.range 256).find? (fun i => !used.contains i)).getD 0
          let core := g.coreAt p
          let pc := codeAddress (grid.code + BitVec.ofNat 64 (grid.kd.attach.getD (roleNat r) 0).toNat).toNat
          let w := Warp.fresh s.fresh gid r index core ((s.freeSlot core r).getD 0) p grid.mode s.fresh grid.kd.budget pc
          .next (({ s with warps := s.warps ++ [w], fresh := s.fresh + 1 }.joinBarriers w.uid).faultOrphans gid)

/-! ### Retirement (R365, R430) -/

/-- Whether a store of a group waits in a store buffer or has not performed; with LOCALDONE, one to device memory (R430). -/
def State.storesLeft (s : State) (g : Group) : Bool :=
  let counts := fun (key : Nat) => decide (key < spaceSize) || !((s.grid? g.grid).elim false Grid.localDone)
  s.sbuf.any (fun e => e.group == g.uid && counts e.key) ||
    s.flows.any (fun f => f.held.any (fun m => m.ordered && !m.performed && m.from_.group == g.uid && counts m.key))

/-- GROUP_RETIRE. -/
def execGroupRetire (gid : Nat) (s : State) : Host.Outcome State Fault Refusal :=
  match s.group? gid with
  | none => .next s
  | some g =>
    if g.state ≠ .retiring ∨ s.groupBusy g = true then .next s
    else
      let s := s.performWhere (fun e => e.group == gid)
      .next (if s.storesLeft g then s else s.dropGroup g)

end Sys2Proof.Machine
end

