-- ==== Sys2Proof/Machine/Kernel.lean ====
section
/-! DEFINITION. The kernel table, the submission queues and the life of a grid (R71, R417 to R430, R242). -/

namespace Sys2Proof.Machine

/-! ### What a headbox reads -/

/-- What a headbox's access to an address finds; an address has 57 bits (R23). -/
def State.headboxFinds (s : State) (c : Ctx) (va : Nat) : Xlat :=
  if 2 ^ 57 ≤ va then .prot 0 else s.headboxXlat c .read va

/-- The parts of a run of bytes that lie in one line each: address and number. -/
def lineParts (va n : Nat) : List (Nat × Nat) :=
  if n = 0 then []
  else (List.range ((va + n - 1) / 128 + 1 - va / 128)).map (fun i =>
    let a := max va (128 * (va / 128 + i))
    (a, min (va + n) (128 * (va / 128 + i + 1)) - a))

/-- `n` bytes at a virtual address, line by line, with the state that the reads leave; or the first access that does not succeed. -/
def State.headboxRead (s : State) (c : Ctx) (va n : Nat) : Except (Nat × Xlat) (List Byte × State) :=
  (lineParts va n).foldl (fun r x =>
    match r with
    | .error e => .error e
    | .ok (bs, s) =>
      match s.headboxFinds c x.1 with
      | .ok key => .ok (bs ++ memReads s.mem key x.2, s.headboxWalk c .read x.1 key)
      | e => .error (x.1, e)) (.ok ([], s))

/-! ### Kernel descriptors (R417) -/

/-- The descriptor in 256 bytes. -/
def KernelDesc.of (m : List Host.Cell) : KernelDesc :=
  let words := fun a n => (getEach m a 4 n).map (BitVec.ofNat 32)
  let vat := memNat m 40 4
  { itabn := memNat m 4 4, entry := words 8 3, attach := words 20 3,
    warps := (List.range 3).map (fun r => (memNat m (32 + 2 * r) 1, memNat m (33 + 2 * r) 1)), span := memNat m 38 1,
    budget := memNat m 39 1, rf := field vat 0 8, sp := field vat 8 8, ts := field vat 16 8, args := memNat m 44 4,
    grid := (BitVec.ofNat 32 (memNat m 48 4), BitVec.ofNat 32 (memNat m 52 4), BitVec.ofNat 32 (memNat m 56 4)),
    queues := words 64 16, bars := (getEach m 128 1 16).map (BitVec.ofNat 8), tiles := words 144 16,
    fmtm := BitVec.ofNat 32 (memNat m 208 4), fmtw := words 212 10 }

/-- Grid extents: each at least 1, the product at most 2^32. -/
def gridOk (x y z : Nat) : Bool := decide (1 ≤ x) && decide (1 ≤ y) && decide (1 ≤ z) && decide (x * y * z ≤ 2 ^ 32)

def queueWordOk (w : Nat) : Bool :=
  w == 0 || (decide (w < 2 ^ 14) && !w.testBit 7 && decide (2 ≤ field w 0 7) && decide (field w 0 7 ≤ 64) && field w 8 3 != 0 &&
    field w 11 3 != 0)

def barrierByteOk (w : Nat) : Bool := w == 0 || (w.testBit 7 && field w 3 4 == 0 && field w 0 3 != 0)

def tileWordOk (w : Nat) : Bool :=
  w == 0 || (decide (w < 2 ^ 18) && field w 14 2 == 0 && field w 6 2 == 0 && field w 16 2 != 0 &&
    decide (1 ≤ field w 0 6) && decide (field w 0 6 ≤ 32) && decide (1 ≤ field w 8 6) && decide (field w 8 6 ≤ 32))

/-- The limits of R71 and R417, with the bytes of the descriptor for its zero fields. -/
def KernelDesc.ok (kd : KernelDesc) (m : List Host.Cell) : Bool :=
  let w := fun r => kd.warps.getD r (0, 0)
  decide (kd.itabn ≤ 65536) &&
  (List.range 3).all (fun r => decide ((w r).1 ≤ (w r).2) && decide ((w r).2 ≤ (if r = 2 then 128 else 16)) &&
    ((w r).1 == 0 || kd.entry.getD r 0 != 0xFFFFFFFF)) &&
  decide (1 ≤ kd.span) && decide (kd.span ≤ 8) && decide (1 ≤ kd.budget) && decide (kd.budget ≤ 16) &&
  memNat m 43 1 == 0 && decide (kd.sp ≤ 95) && decide (kd.ts ≤ 95) && decide (kd.rf + kd.sp + kd.ts ≤ 96) &&
  ((w 2).2 == 0 || decide (1 ≤ kd.rf)) && decide (kd.args ≤ 4096) && kd.args % 8 == 0 &&
  gridOk kd.grid.1.toNat kd.grid.2.1.toNat kd.grid.2.2.toNat && memNat m 60 4 % 8 == 0 &&
  kd.queues.all (fun q => queueWordOk q.toNat) && kd.bars.all (fun b => barrierByteOk b.toNat) &&
  kd.tiles.all (fun t => tileWordOk t.toNat) && Nat.land kd.fmtm.toNat 0xFFFF003F == 0 &&
  (List.range 10).all (fun i => !kd.fmtm.getLsbD (6 + i) || fmtLegal (kd.fmtw.getD i 0)) && memNat m 252 4 == 0

/-! ### The kernel table (R420 to R423) -/

/-- An entry that was never written. -/
def KernelEntry.none (part kid : Nat) : KernelEntry :=
  { part := part, kid := kid, wDesc := 0, wCode := 0, wItab := 0, wGen := 0, desc := 0, code := 0, itab := 0, gen := 0,
    valid := false, fail := false, slot := 0, step := 0, mode := .trusting, kd := KernelDesc.empty, commit := Option.none }

def KernelEntry.key (k : KernelEntry) : Nat := k.part * 4096 + k.kid

def State.kernelOr (s : State) (part kid : Nat) : KernelEntry := (s.kernel? part kid).getD (KernelEntry.none part kid)
def State.putKernel (s : State) (k : KernelEntry) : State := { s with kernels := insertBy KernelEntry.key k s.kernels }

/-- The scheduling mode of a number; 3 is undefined, and no commit accepts it. -/
def modeOfNat (n : Nat) : Mode :=
  match n with
  | 0 => .trusting
  | 1 => .checking
  | _ => .interlocked

/-- The mode of every warp admitted under an entry: a foreign stepping runs interlocked (R61, R419). -/
def KernelEntry.runsIn (k : KernelEntry) : Mode := if k.step = 1 then k.mode else .interlocked

/-- Whether a context may hold kernels (R421). -/
def CtxState.holds : CtxState → Bool
  | .created => true
  | .active => true
  | .suspended => true
  | _ => false

/-- The descriptor at a virtual address, when it can be read and keeps to its limits, with the state that the read leaves; or whether
the headbox has yet to reach it. -/
def State.readDescriptor (s : State) (c : Ctx) (va : Nat) : Except Bool (KernelDesc × State) :=
  if va % 64 ≠ 0 then .error false
  else match s.headboxRead c va 256 with
    | .error (_, .stalled _) => .error true
    | .error _ => .error false
    | .ok (bs, s) =>
      let m := memPut [] 0 bs
      if (KernelDesc.of m).ok m then .ok (KernelDesc.of m, s) else .error false

/-- A CFG word with a reserved bit at one or MODE 3, or a GEN word with one: R3 and R421 refuse the commit. -/
def KernelEntry.badWrite (k : KernelEntry) (cfg : Word) : Bool :=
  field cfg.toNat 22 7 != 0 || field cfg.toNat 2 6 != 0 || field cfg.toNat 0 2 == 3 || field k.wGen.toNat 16 16 != 0

/-- A commit that is refused. -/
def KernelEntry.refused (k : KernelEntry) : KernelEntry := { k with fail := true, commit := Option.none }

/-- The five fields committed at one instant, with the bits of CFG. -/
def KernelEntry.committed (k : KernelEntry) (cfg : Word) (valid : Bool) (kd : KernelDesc) : KernelEntry :=
  { k with
    desc := k.wDesc
    code := k.wCode
    itab := k.wItab
    gen := k.wGen.setWidth 16
    valid := valid
    fail := false
    slot := field cfg.toNat 16 6
    step := BitVec.ofNat 8 (field cfg.toNat 8 8)
    mode := modeOfNat (field cfg.toNat 0 2)
    kd := kd
    commit := Option.none }

/-- A write of CFG with V = 1. While the headbox cannot reach the descriptor, the commit waits (R436). -/
def State.commitKernel (s : State) (part kid : Nat) (cfg : Word) : State :=
  let k := s.kernelOr part kid
  match (s.ctx? part (field cfg.toNat 16 6)).filter (fun c => c.state.holds && !k.badWrite cfg) with
  | none => s.putKernel k.refused
  | some c =>
    match s.readDescriptor c k.wDesc.toNat with
    | .error true => s.putKernel { k with commit := some cfg }
    | .error false => s.putKernel k.refused
    | .ok (kd, s) => s.putKernel (k.committed cfg true kd)

/-- KERNEL_COMMIT. -/
def execKernelCommit (part kid : Nat) (cfg : BitVec 32) (s : State) : Host.Outcome State Fault Refusal :=
  if 6 ≤ part ∨ 4096 ≤ kid ∨ s.driverReaches = false then .next s else .next (s.commitKernel part kid cfg)

/-- The commits that wait are tried again. -/
def State.retryCommits (s : State) : State :=
  s.kernels.foldl (fun s k => k.commit.elim s (s.commitKernel k.part k.kid)) s

/-- KERNEL_WITHDRAW: the five fields are committed with V = 0, and grids already admitted run on. The descriptor is not read. -/
def State.withdrawKernel (s : State) (part kid : Nat) (cfg : Word) : State :=
  let k := s.kernelOr part kid
  s.putKernel (if k.badWrite cfg then k.refused else k.committed cfg false k.kd)

def execKernelWithdraw (part kid : Nat) (cfg : BitVec 32) (s : State) : Host.Outcome State Fault Refusal :=
  if 6 ≤ part ∨ 4096 ≤ kid ∨ s.driverReaches = false then .next s else .next (s.withdrawKernel part kid cfg)

/-- OLD (R423): a grid of the kernel runs under another generation than the one in force. -/
def State.kernelOld (s : State) (k : KernelEntry) : Bool :=
  s.grids.any (fun g => g.part == k.part && g.kid == k.kid && g.gen != k.gen && decide (g.retired < g.x * g.y * g.z))

/-! ### Submission-queue registers (R424) -/

def State.countQueue (s : State) : State := { s with counters := { s.counters with queues := satInc s.counters.queues } }

/-- A write of CFG: accepted when EN reads 0, or when it clears EN. -/
def State.writeQueueCfg (s : State) (part slot n : Nat) (cfg : Word) : State :=
  match s.ctx? part slot with
  | none => s
  | some c =>
    let q := c.queueOr n
    let x := cfg.toNat
    if field x 18 11 ≠ 0 ∨ field x 5 11 ≠ 0 ∨ field x 0 5 < 4 ∨ 16 < field x 0 5 then s.countQueue
    else if q.en = true ∧ cfg.getLsbD 31 = true then s.countQueue
    else if cfg.getLsbD 31 then
      s.setCtx (c.putQueue { q with cfg := cfg, stop := false, cause := 0, rptr := q.wptr, blocked := none, future := none })
    else s.setCtx (c.putQueue { q with cfg := cfg })

/-- QUEUE_ENABLE and QUEUE_DISABLE. -/
def execQueueEnable (part slot queue : Nat) (cfg : BitVec 32) (s : State) : Host.Outcome State Fault Refusal :=
  if 64 ≤ queue ∨ s.driverReaches = false then .next s else .next (s.writeQueueCfg part slot queue cfg)

def execQueueDisable (part slot queue : Nat) (cfg : BitVec 32) (s : State) : Host.Outcome State Fault Refusal :=
  if 64 ≤ queue ∨ s.driverReaches = false then .next s else .next (s.writeQueueCfg part slot queue cfg)

/-- A write of WPTR. -/
def State.writeWptr (s : State) (part slot n : Nat) (v : Word) : State :=
  match s.ctx? part slot with
  | none => s
  | some c =>
    let q := c.queueOr n
    if q.dev = true ∨ q.entries < (v - q.rptr).toNat then s.countQueue else s.setCtx (c.putQueue { q with wptr := v })

/-- WPTR. -/
def execWptr (part slot queue : Nat) (v : BitVec 32) (s : State) : Host.Outcome State Fault Refusal :=
  if 64 ≤ queue ∨ s.driverReaches = false then .next s else .next (s.writeWptr part slot queue v)

/-! ### Reading packets (R426, R427) -/

/-- Whether a headbox serves the queues of a context. -/
def Ctx.serves (c : Ctx) : Bool := (c.state == .created || c.state == .active) && !c.saving

/-- A queue stopped at its packet. -/
def SubQueue.stopAt (q : SubQueue) (cause : Nat) : SubQueue :=
  { q with stop := true, cause := BitVec.ofNat 8 cause, rptr := (if q.blocked.isSome then q.rptr - 1 else q.rptr),
           blocked := Option.none, future := Option.none }

/-- A failed access of a queue's headbox: a pager future that the queue waits on, a home out of reach, which is tried again, or a
stop. -/
def State.queueMiss (s : State) (c : Ctx) (n va : Nat) (x : Xlat) : State :=
  match x with
  | .waits mig =>
    match s.joinFuture c.part c.slot (va / 4096) mig false false 0xFF with
    | none => s
    | some (f, s) =>
      match s.ctx? c.part c.slot with
      | none => s
      | some c => s.setCtx (c.putQueue { c.queueOr n with future := some f })
  | .stalled _ => s
  | _ => s.setCtx (c.putQueue ((c.queueOr n).stopAt 7))

/-- Why a packet is malformed, causes 1 to 6 in order. -/
def State.packetCause (s : State) (c : Ctx) (q : SubQueue) (p : Packet) : Option Nat :=
  let k := s.kernelOr c.part p.kid
  let (x, y, z) := p.gridOf
  if p.type ≠ 0 ∧ p.type ≠ 1 ∧ p.type ≠ 3 ∧ p.type ≠ 4 then some 1
  else if p.type = 1 ∧ (4096 ≤ p.kid ∨ k.valid = false ∨ k.slot ≠ c.slot) then some 2
  else if p.type = 1 ∧ (x ≠ 0 ∨ y ≠ 0 ∨ z ≠ 0) ∧ gridOk x y z = false then some 3
  else if p.reserved then some 4
  else if p.done % 8 ≠ 0 ∨ p.dep % 8 ≠ 0 ∨ (p.type = 1 ∧ (p.args % 8 ≠ 0 ∨ (p.args = 0 ∧ k.kd.args ≠ 0))) ∨
      (p.type = 4 ∧ (p.va % 4096 ≠ 0 ∨ p.len % 4096 ≠ 0 ∨ p.len = 0)) then some 5
  else if (p.hndl ∨ p.type = 4) ∧ q.priv = false then some 6
  else none

/-- PACKET_READ: the next packet is read, and is Blocked until it is ready. -/
def execPacketRead (part slot queue : Nat) (s : State) : Host.Outcome State Fault Refusal :=
  match s.ctx? part slot with
  | none => .next s
  | some c =>
    let q := c.queueOr queue
    if c.serves = false ∨ q.en = false ∨ q.stop = true ∨ q.blocked.isSome = true ∨ q.future.isSome = true ∨
        q.shooting.isSome = true ∨ q.rptr = q.wptr then .next s
    else
      let va := q.entryAt q.rptr.toNat
      match s.headboxRead c va 64 with
      | .error (_, .nowhere) => .fault .noSuchPhysicalAddress
      | .error (va, x) => .next (s.queueMiss c queue va x)
      | .ok (bs, s) =>
        let p : Packet := BitVec.ofNat 512 (natLE bs)
        .next (match s.packetCause c q p with
          | some cause => s.setCtx (c.putQueue (q.stopAt cause))
          | none => s.setCtx (c.putQueue { q with blocked := some p, rptr := q.rptr + 1 }))

/-! ### Ready packets (R426) -/

/-- Whether a partition has quires on die 1, so that a shoot-down's notices cross link 0 in class 3 (R273). -/
def State.onDieOne (s : State) (part : Nat) : Bool := ((s.parts.getD part Part.reset).mask >>> 3) != 0

/-- Whether the notices of a partition can go from a die to the other. -/
def State.notifies (s : State) (part a b : Nat) : Bool := !s.onDieOne part || s.crosses a 3 (dieKey b)

/-- Whether nothing keeps the headbox from doing what a packet asks: no launch follows a fault of R30; a future is free for an argument
block that is not resident, and its lines are within reach; and a shoot-down's notices can cross. -/
def State.mayTake (s : State) (c : Ctx) (p : Packet) : Bool :=
  match p.type with
  | 1 =>
    !s.barred && (match s.headboxRead c p.args (s.kernelOr c.part p.kid).kd.args with
      | .error (_, .stalled _) => false
      | .error (va, .waits mig) => (s.joinFuture c.part c.slot (va / 4096) mig false false 0xFF).isSome
      | _ => true)
  | 4 => s.notifies c.part 0 1
  | _ => true

/-- Whether the packet at the head of a queue is ready, and can be taken; one that cannot holds no other queue back (log entry 115). -/
def State.packetReady (s : State) (c : Ctx) (q : SubQueue) (p : Packet) : Bool :=
  c.serves && q.en && q.future.isNone && q.shooting.isNone && (!p.bar || q.open_.isEmpty) &&
    (p.dep == 0 || (match s.headboxFinds c p.dep with
      | .ok key => decide (p.depv ≤ memNat s.mem key 8)
      | _ => false)) && s.mayTake c p

/-- The ready packets of a partition: priority, and the number of the pair of context slot and queue. -/
def State.readyPackets (s : State) (part : Nat) : List (Nat × Nat) :=
  (s.ctxs.filter (fun c => c.part == part)).flatMap (fun c => c.queues.filterMap (fun q =>
    match (q.blocked : Option Packet) with
    | some p => if s.packetReady c q p then some (q.prio, c.slot * 64 + q.n) else none
    | none => none))

/-- The pair that is taken next: the highest priority, then round robin after the pointer of that priority. -/
def State.nextPacket (s : State) (part : Nat) : Option (Nat × Nat) :=
  let xs := s.readyPackets part
  let P := s.parts.getD part Part.reset
  [0, 1, 2, 3].findSome? (fun prio =>
    let start := P.qpointer.getD prio 0 + 1
    let ys := sortBy (fun n => (n + 4096 - start % 4096) % 4096) ((xs.filter (fun x => x.1 == prio)).map Prod.snd)
    (ys.head?).map (fun n => (prio, n)))

/-- The packet that a queue's turn takes, of a type: the context, the queue and the packet. -/
def State.taken (s : State) (part slot queue type : Nat) : Option (Ctx × SubQueue × Packet) :=
  match s.nextPacket part, s.ctx? part slot with
  | some (_, n), some c =>
    let q := c.queueOr queue
    match (q.blocked : Option Packet) with
    | some (p : Packet) => if n = slot * 64 + queue ∧ Packet.type p = type then some (c, q, p) else none
    | none => none
  | _, _ => none

/-- What the read of a dependence that is met leaves; polls that are not met leave no message (log entry 84). -/
def State.readDep (s : State) (c : Ctx) (p : Packet) : State :=
  if p.dep = 0 then s
  else match s.headboxFinds c p.dep with
    | .ok key => s.headboxWalk c .read p.dep key
    | _ => s

/-- The packet is taken: the pointer of its priority moves to its pair, and it is open until it completes. -/
def State.takePacket (s : State) (c : Ctx) (q : SubQueue) (p : Packet) (q' : SubQueue) : State :=
  let P := s.parts.getD c.part Part.reset
  let s := s.readDep c p
  { s.setCtx (c.putQueue q') with
    parts := s.parts.setIfInBounds c.part { P with qpointer := P.qpointer.setIfInBounds q.prio (c.slot * 64 + q.n) } }

/-- The ring index of the packet at the head. -/
def SubQueue.index (q : SubQueue) : Nat := (q.rptr - 1).toNat

/-- A packet that is open. -/
def SubQueue.opened (q : SubQueue) : SubQueue := { q with blocked := Option.none, open_ := q.open_ ++ [q.index] }

/-- DEPENDENCE_POLL: a dependence that cannot be read makes a pager request or stops its queue; one that is met is found when
the packet is taken. -/
def execDependencePoll (part slot queue : Nat) (s : State) : Host.Outcome State Fault Refusal :=
  match s.ctx? part slot with
  | none => .next s
  | some c =>
    let q := c.queueOr queue
    match (q.blocked : Option Packet) with
    | none => .next s
    | some p =>
      if (Packet.dep p) = 0 ∨ q.future.isSome = true ∨ c.serves = false ∨ q.en = false then .next s
      else match s.headboxFinds c (Packet.dep p) with
        | .ok _ => .next s
        | .nowhere => .fault .noSuchPhysicalAddress
        | x => .next (s.queueMiss c queue (Packet.dep p) x)

/-- PACKET_BARRIER: a ready packet of type 0 completes. -/
def execPacketBarrier (part slot queue : Nat) (s : State) : Host.Outcome State Fault Refusal :=
  match s.taken part slot queue 0 with
  | none => .next s
  | some (c, q, p) => .next (s.takePacket c q p { q with blocked := none })

/-- SIGNAL: DADD is added to DONE. -/
def execSignal (part slot queue : Nat) (s : State) : Host.Outcome State Fault Refusal :=
  match s.taken part slot queue 3 with
  | none => .next s
  | some (c, q, p) => .next ((s.takePacket c q p q.opened).performAdd part slot (.packet q.n q.index) p.done p.dadd)

/-! ### Shoot-downs (R242) -/

/-- Whether an address range meets a packet's. -/
def Packet.covers (p : Packet) (va n : Nat) : Bool := rangesMeet p.va p.len va n

/-- The notices of a shoot-down sent from a die to the other. -/
def State.notify (s : State) (part a b : Nat) : State :=
  if s.onDieOne part then s.cross (Sender.ofDie a 6 0) 3 (dieKey b) else s

/-- The translation caches of a context drop a range. -/
def State.dropRange (s : State) (part slot : Nat) (p : Packet) : State :=
  { s with tlb := s.tlb.filter (fun t => !(t.part == part && t.slot == slot && p.covers t.base t.size)) }

/-- SHOOTDOWN: the translation caches of the partition drop the range, and stores that used it perform. -/
def execShootdown (part slot queue : Nat) (s : State) : Host.Outcome State Fault Refusal :=
  match s.taken part slot queue 4 with
  | none => .next s
  | some (c, q, p) =>
    if s.notifies part 0 1 = false then .next s
    else
      let s := ((s.notify part 0 1).takePacket c q p { q.opened with shooting := some (q.index, p) }).dropRange part slot p
      .next (s.performWhere (fun e => e.from_.part == part && e.from_.ctx == slot && p.covers e.from_.va e.data.length))

/-- Whether an access that used a translation of the range has not performed. -/
def State.shooting (s : State) (part slot : Nat) (p : Packet) : Bool :=
  let mine := fun (f : Sender) (n : Nat) => f.part == part && f.ctx == slot && p.covers f.va n
  s.copies.any (fun c => c.part == part && c.ctx == slot && c.pages.any (fun n => p.covers (4096 * n) 4096)) ||
    s.sbuf.any (fun e => mine e.from_ e.data.length) ||
    s.flows.any (fun f => f.held.any (fun m => !m.performed && mine m.from_ (max 1 m.data.length))) ||
    s.remotes.any (fun r => r.from_.part == part && r.from_.ctx == slot && r.reqs.any (fun q => p.covers q.va q.size))

/-- SHOOTDOWN_COMPLETE: the accesses that used such translations have performed, the copies that hold them have completed, and no
cache holds one again; DADD is added to DONE. -/
def execShootdownComplete (part slot queue : Nat) (s : State) : Host.Outcome State Fault Refusal :=
  match s.ctx? part slot with
  | none => .next s
  | some c =>
    let q := c.queueOr queue
    match (q.shooting : Option (Nat × Packet)) with
    | none => .next s
    | some (idx, p) =>
      if s.shooting part slot p || !s.notifies part 1 0 then .next s
      else
        let s := ((s.notify part 1 0).dropRange part slot p).setCtx (c.putQueue { q with shooting := none })
        .next (s.performAdd part slot (.packet q.n idx) (Packet.done p) (Packet.dadd p))

/-! ### Admission (R428, R429) -/

/-- The update that a launch makes of a format entry, unless the entry holds the word already (R429): the state, and the updates
that the grid waits for. -/
def State.installFormat (s : State) (part slot : Nat) (kd : KernelDesc) (i : Nat) (stamps : List Nat) : State × List Nat :=
  match s.ctx? part slot with
  | none => (s, stamps)
  | some c =>
    let x := kd.fmtw.getD i 0
    if kd.fmtm.getLsbD (6 + i) = false then (s, stamps)
    else match c.updating.reverse.find? (fun u => u.n == 6 + i) with
      | some u =>
        if u.word = x then (s, u.stamp :: stamps)
        else ({ s.setCtx (c.update s.fresh (6 + i) x) with fresh := s.fresh + 1 }, s.fresh :: stamps)
      | none =>
        if c.fmt.getD i 0 = x then (s, stamps)
        else ({ s.setCtx (c.update s.fresh (6 + i) x) with fresh := s.fresh + 1 }, s.fresh :: stamps)

/-- The format entries that a launch installs, in ascending order, as `FMTSET` does (R81). -/
def State.installFormats (s : State) (part slot : Nat) (kd : KernelDesc) : State × List Nat :=
  (List.range 10).foldl (fun r i => r.1.installFormat part slot kd i r.2) (s, [])

/-- The grid of a packet. -/
def newGrid (s : State) (c : Ctx) (q : SubQueue) (p : Packet) (k : KernelEntry) (args : List Byte) : Grid :=
  let (x, y, z) := if p.gridOf = (0, 0, 0) then (k.kd.grid.1.toNat, k.kd.grid.2.1.toNat, k.kd.grid.2.2.toNat) else p.gridOf
  { uid := s.fresh, part := c.part, ctx := c.slot, queue := q.n, packet := q.index, gridn := c.gridn, kid := k.kid,
    code := k.code, gen := k.gen, mode := k.runsIn, kd := k.kd, x := x, y := y, z := z, args := args, handler := p.hndl,
    prio := q.prio, done := BitVec.ofNat 64 p.done, dadd := BitVec.ofNat 32 p.dadd, localDone := p.localDone,
    installing := [], state := .admitted, next := 0, retired := 0, since := s.ticks, killed := [] }

/-- LAUNCH: the checks are made again, the arguments copied, the format entries set, and the first group is Pending. -/
def execLaunch (part slot queue : Nat) (s : State) : Host.Outcome State Fault Refusal :=
  match s.taken part slot queue 1 with
  | none => .next s
  | some (c, q, p) =>
    if s.barred then .next s
    else match s.packetCause c q p with
      | some cause => .next (s.setCtx (c.putQueue (q.stopAt cause)))
      | none =>
        let k := s.kernelOr part p.kid
        match s.headboxRead c p.args k.kd.args with
        | .error (_, .nowhere) => .fault .noSuchPhysicalAddress
        | .error (va, x) => .next (s.queueMiss c queue va x)
        | .ok (args, s) =>
          let g := newGrid s c q p k args
          let s := s.takePacket { c with gridn := c.gridn + 1, state := .active } q p q.opened
          let (s, waits) := { s with fresh := s.fresh + 1 }.installFormats part slot k.kd
          let s := { s with grids := s.grids ++ [{ g with installing := waits }] }
          .next (if waits.isEmpty then nextGroup 1 s g.uid else s)

/-! ### Completion (R430) -/

/-- Whether work of a grid that its completion waits for has not performed, or is not acknowledged. With LOCALDONE that is work in
device memory alone, once it has performed. -/
def State.gridBusy (s : State) (g : Grid) : Bool :=
  let counts := fun (key : Nat) => !g.localDone || decide (key < spaceSize)
  s.copies.any (fun c => c.grid == g.uid && !(g.localDone && c.sent)) ||
    s.sbuf.any (fun e => e.from_.grid == g.uid && counts e.key) ||
    s.flows.any (fun f => f.held.any (fun m => m.from_.grid == g.uid && counts m.key && !(g.localDone && m.performed))) ||
    s.remotes.any (fun r => r.grid == g.uid && r.reqs.any (fun q => counts q.key))

/-- GRID_COMPLETE: a Closing grid, its work performed, adds DADD to DONE. -/
def execGridComplete (grid : Nat) (s : State) : Host.Outcome State Fault Refusal :=
  match s.grid? grid with
  | none => .next s
  | some g =>
    let pending := (s.ctx? g.part g.ctx).elim true (fun c => c.adds.any (fun a => a.what == .grid grid))
    if g.state ≠ .closing ∨ pending = true ∨ s.gridBusy g = true then .next s
    else .next (s.performAdd g.part g.ctx (.grid grid) g.done.toNat g.dadd.toNat)

end Sys2Proof.Machine
end

