-- ==== Sys2Proof/Machine/Mailbox.lean ====
section
/-! DEFINITION. Class 0xA, mailboxes (R343 to R348). -/

namespace Sys2Proof.Machine

def State.mbox? (s : State) (m : Nat) : Option Mailbox := findKey Mailbox.m m s.mboxes
def State.setMbox (s : State) (b : Mailbox) : State := { s with mboxes := insertBy Mailbox.m b s.mboxes }

/-- The fields of a mailbox configuration (R343). -/
def Mailbox.en (b : Mailbox) : Bool := b.cfg.getLsbD 31
def Mailbox.closed (b : Mailbox) : Bool := b.cfg.getLsbD 30
def Mailbox.cls (b : Mailbox) : Nat := field b.cfg.toNat 28 2
def Mailbox.home (b : Mailbox) : Nat := field b.cfg.toNat 22 6
def Mailbox.depth (b : Mailbox) : Nat := field b.cfg.toNat 0 12 + 1

/-- Messages of a class that a home slice has accepted and that are not yet receivable (R346). -/
def State.unreceivable (s : State) (home cls : Nat) : Nat :=
  (s.mboxes.filter (fun b => b.home == home && b.cls == cls)).foldl
    (fun a b => a + (b.msgs.filter (fun x => !x.receivable)).length) 0

/-- Whether a class cannot be honoured for a sender on a die (R346). -/
def State.classRefused (s : State) (b : Mailbox) (die : Nat) : Bool :=
  b.cls != 3 &&
    ((decide (b.cls < 2) && b.home / 32 != die && (s.links[0]?).elim true (fun l => l.state != .up)) ||
      decide (64 ≤ s.unreceivable b.home b.cls))

/-- The status of a send (R345). -/
def Issue.sendStatus (I : Issue) (s : State) (m : Nat) : Nat :=
  if s.feature 4 = false then 4
  else if s.accAllows 84 I.agent.master m true = false then 3
  else match s.mbox? m with
    | none => 4
    | some b =>
      if b.en = false ∨ b.closed = true then 4
      else if b.depth ≤ b.msgs.length then 1
      else if s.classRefused b (dieOf I.warp.core) then 2
      else 0

/-- `MBSEND` (R345): a release at system scope, then the home slice's answer. A message that the mailbox of the other die accepts crosses
in class 3 of link 0 with its answer (R273, R445). A send that is refused, with any status, is answered at once and crosses nothing:
the spec does not say where it is refused (log entry 84). -/
def execMbsend (a : BitVec 6) (m : BitVec 8) (s : State) : Host.Outcome State Fault Refusal :=
  runInstr (.mbsend a m) (fun I =>
    match I.release I.st 4 with
    | .error e => .error e
    | .ok s =>
      let st := I.sendStatus s m.toNat
      let w := I.warp.setS a.toNat (BitVec.ofNat 32 st)
      let die := dieOf I.warp.core
      match (if st = 0 then s.mbox? m.toNat else none) with
      | none => .ok { st := s.setWarp w }
      | some b =>
        let key := dieKey (b.home / 32)
        if s.exchanges die 3 key = false then .error (.wait s (.crossing die 3 key))
        else
          let x : MboxMsg :=
            { tag := (I.view.getS a.toNat).setWidth 16, w1 := I.view.getS (a.toNat + 1), w2 := I.view.getS (a.toNat + 2),
              w3 := I.view.getS (a.toNat + 3), part := I.group.part, ctx := I.group.ctx, since := s.ticks, receivable := false }
          .ok { st := ((s.exchange I.sender 3 key).setWarp w).setMbox { b with msgs := b.msgs ++ [x] } }) s

/-- Four scalars written (R347). -/
def Warp.setQuad (w : Warp) (d : Nat) (x0 x1 x2 x3 : Word) : Warp :=
  (((w.setS d x0).setS (d + 1) x1).setS (d + 2) x2).setS (d + 3) x3

/-- What a configured mailbox answers an `MBRECV` (R347): the four scalars, and the messages that stay. Messages become receivable in
order, so the oldest receivable one is the oldest. -/
def Mailbox.pop (b : Mailbox) : (Word × Word × Word × Word) × List MboxMsg :=
  match b.msgs with
  | [] => ((0, 0, 0, 0), [])
  | x :: rest =>
    if x.receivable = false then ((0, 0, 0, 0), b.msgs)
    else ((BitVec.ofNat 32 (2 ^ 30 + x.part * 2 ^ 16 + x.tag.toNat), x.w1, x.w2, x.w3), rest)

/-- `MBRECV` (R347). The request for a mailbox of the other die crosses in class 3 of link 0 with its answer, a class that the spec does
not give it; one that is refused is answered at once (R436; log entry 84). -/
def execMbrecv (d : BitVec 6) (m : BitVec 8) (s : State) : Host.Outcome State Fault Refusal :=
  runInstr (.mbrecv d m) (fun I =>
    let answer := fun (st : Nat) => Except.ok { st := I.put (I.warp.setQuad d.toNat (BitVec.ofNat 32 (st * 2 ^ 30)) 0 0 0) }
    if I.st.feature 4 = false then answer 3
    else if I.st.accAllows 84 I.agent.master m.toNat false = false then answer 2
    else match I.st.mbox? m.toNat with
      | none => answer 3
      | some b =>
        let die := dieOf I.warp.core
        let key := dieKey (b.home / 32)
        if b.en = false then answer 3
        else if I.st.exchanges die 3 key = false then .error (.wait I.st (.crossing die 3 key))
        else
          let x := b.pop
          .ok { st := ((I.st.exchange I.sender 3 key).setWarp
                  (I.warp.setQuad d.toNat x.1.1 x.1.2.1 x.1.2.2.1 x.1.2.2.2)).setMbox { b with msgs := x.2 } }) s

end Sys2Proof.Machine
end

