-- ==== Sys2Proof/Machine/Links.lean ====
section
/-! DEFINITION. The events of the memory system and the links: store buffers, release tags, flows, permits, remote replies and the
host's accesses (R255, R256, R268, R346, R436 to R447). -/

namespace Sys2Proof.Machine

/-! ### Store buffers and release tags (R256, R268) -/

/-- STORE_BUFFER_TIMEOUT: entries 4,096 clocks old perform. -/
def execStoreBufferTimeout (core : Nat) (s : State) : Host.Outcome State Fault Refusal :=
  .next (s.performWhere (fun e => e.core == core && decide (e.since + 4096 ≤ s.clock core)))

/-- The die on which a device line is homed. -/
def lineDie (line : Nat) : Nat := dieOfKey (128 * line)

/-- Whether a class 3 message goes from a die to a die now (R273, R442). -/
def State.dieCrosses (s : State) (a b : Nat) : Bool := s.crosses a 3 (dieKey b)

/-- A tag changed, or gone. -/
def State.mapTag (s : State) (t : Tag) (f : Tag → Option Tag) : State :=
  { s with tags := s.tags.filterMap (fun x => if x = t then f x else some x) }

/-- The drain request of a tag: its core performs its entries up to the tag's. -/
def State.drainTag (s : State) (t : Tag) : State :=
  if t.draining = false ∨ t.drained = true ∨ s.dieCrosses (lineDie t.line) (dieOf t.core) = false then s
  else
    let s := s.mapTag t (fun t => some { t with drained := true })
    (s.cross (Sender.ofDie (lineDie t.line) 6 0) 3 (dieKey (dieOf t.core))).performWhere (fun e => e.core == t.core && decide (e.seq ≤ t.seq))

/-- PROMOTION_DRAIN_REQUEST. -/
def execPromotionDrainRequest (line : Nat) (s : State) : Host.Outcome State Fault Refusal :=
  .next ((s.tagsOf line).foldl State.drainTag s)

/-- The reply to a drain, once the entries have performed and are acknowledged: the slice clears the tag. -/
def State.replyTag (s : State) (t : Tag) : State :=
  if t.drained = false ∨ s.unperformed t.core (t.seq + 1) = true ∨ s.unacknowledged t.core (t.seq + 1) = true ∨
      s.dieCrosses (dieOf t.core) (lineDie t.line) = false then s
  else (s.mapTag t (fun _ => none)).cross (Sender.ofDie (dieOf t.core) 6 0) 3 (dieKey (lineDie t.line))

/-- PROMOTION_DRAIN_REPLY: reads that wait for the tag go on. -/
def execPromotionDrainReply (line : Nat) (s : State) : Host.Outcome State Fault Refusal :=
  .next ((s.tagsOf line).foldl State.replyTag s)

/-! ### Flows (R439, R441) -/

/-- The link that a flow uses. -/
def State.flowLink (s : State) (f : Flow) : Option Nat := s.pathTo f.die f.target

/-- The messages that no acknowledgement has freed. -/
def State.allHeld (s : State) : List Message := s.flows.flatMap Flow.held

/-- Whether a message stays behind another that has not arrived: a read behind its core's earlier store to the line (R220), and a
write of a copy behind an earlier one of it to a byte (R321). -/
def Message.follows (m e : Message) : Bool :=
  decide (e.uid < m.uid) && (match m.kind, e.kind with
    | .copyWrite c _ none, .copyWrite d _ none => c == d && rangesMeet m.key m.data.length e.key e.data.length
    | .read _, _ => e.ordered && e.core == m.core && lineOf e.key == lineOf m.key && !e.performed
    | _, _ => false)

/-- The message of a flow that arrives next: the first in sequence in classes 1 and 3, any one in classes 0 and 2; those beyond the
limit of unacknowledged ones are not sent yet (R441). -/
def State.arriving (s : State) (f : Flow) : Option Message :=
  let ms := (f.held.take flowLimit).filter (fun m => !m.delivered)
  if f.cls % 2 = 1 then ms.head?
  else
    let free := ms.filter (fun m => !s.allHeld.any (fun e => !e.delivered && m.follows e) && !s.allHeld.any (fun e =>
      (m.kind matches .read _) && m.follows e))
    if free.isEmpty then none else free[(Config.freeWord s.draws f.id).toNat % free.length]?

/-- A message changed in its flow. -/
def State.mapMessage (s : State) (uid : Nat) (f : Message → Message) : State :=
  { s with flows := s.flows.map (fun x => { x with held := x.held.map (fun m => if m.uid = uid then f m else m) }) }

/-! ### At the home (R255) -/

/-- Whether the home slice of a device line holds a message back: a copy that owns the line (R320), the host (R440), a release tag
that a promoting atomic drains first (R267, R268), or an earlier message of its core to the line. -/
def State.homeHolds (s : State) (m : Message) : Bool :=
  let line := lineOf m.key
  decide (m.key < spaceSize) &&
    (s.hostHeld.contains line ||
      (m.ordered && (s.ownedAgainst m.core m.order line ||
        s.allHeld.any (fun e => e.delivered && !e.performed && decide (e.uid < m.uid) && e.ordered && e.core == m.core && lineOf e.key == line))) ||
      (match m.kind with
        | .atomic _ scope _ _ => (s.tagsOf line).any (fun t => t.core != m.core && decide (t.scope < scope))
        | _ => false))

/-- The old value of one lane of an atomic, for its reply. -/
def State.putOld (s : State) (frag : FragRef) (lane old : Nat) (refused : Bool) : State :=
  { s with remotes := s.remotes.map (fun r =>
      if r.frag = frag then
        { r with olds := r.olds ++ [(lane, old)], refused := if refused then r.refused ||| maskOf (fun k => k == lane) else r.refused }
      else r) }

/-- The lines that a copy still owns for its messages: those that it has yet to write (R319). -/
def State.releaseLines (s : State) (uid : Nat) : State :=
  match s.copy? uid with
  | none => s
  | some c =>
    if c.sent = false then s
    else
      let lines := c.lines.filter (fun l => s.allHeld.any (fun m => m.ofCopy uid && !m.performed && lineOf m.key == l))
      s.setCopy { c with lines := lines, owned := lines.length }

/-- A message performs at its home. -/
def State.performMessage (s : State) (m : Message) : State :=
  let s := s.mapMessage m.uid (fun m => { m with performed := true })
  match m.kind with
  | .read _ => s
  | .copyRead _ => s
  | .prefetch => s
  | .notice => s
  | .write rel => s.writeHome m.core m.order m.key m.data rel
  | .copyWrite c _ reduce => (s.copyAt m.key m.data reduce).releaseLines c
  | .atomic frag _ req rel =>
    let (s, old) := s.atomicAt m.core m.order rel req
    s.putOld frag req.lane old false

/-- A delivered message performs, unless its home holds it back; a promoting atomic asks for the drain of the tags that it meets. -/
def State.tryMessage (s : State) (m : Message) : State :=
  if s.homeHolds m = false then s.performMessage m
  else match m.kind with
    | .atomic .. => s.requestDrain (lineOf m.key)
    | _ => s

/-- The messages that wait at their homes, oldest first. -/
def State.serveHomes (s : State) : State :=
  (sortBy Message.uid (s.allHeld.filter (fun m => m.delivered && !m.performed))).foldl State.tryMessage s

/-! ### Arrival and acknowledgement (R441, R442) -/

/-- The flits of a message on a link, a permit for each; the spec does not say how many a message has, and it is never more than the
permits held (log entry 85). -/
def State.flits (s : State) (die cls n : Nat) : Nat :=
  let held := (s.links[n]?).elim 0 (fun l => l.held n die cls)
  1 + (Config.freeWord s.draws n).toNat % max 1 held

/-- The next message of a flow with the links that it takes, when they and their permits carry it. -/
def State.ready (s : State) (f : Flow) : Option (Message × Nat) :=
  match s.arriving f, s.flowLink f with
  | some m, some n => if (linksVia f.die n).all (s.permitted f.die f.cls) then some (m, n) else none
  | _, _ => none

/-- A message is delivered: its flits spend permits on every link of its way. -/
def State.deliver (s : State) (f : Flow) (m : Message) (n : Nat) : State :=
  let s := (linksVia f.die n).foldl (fun s l => s.spend f.die f.cls (s.flits f.die f.cls l) l) s
  let s := s.mapMessage m.uid (fun m => { m with delivered := true })
  { s with flows := s.flows.map (fun (x : Flow) => if x.id = f.id then { x with link := n } else x) }

/-- FLOW_MESSAGE_ARRIVAL: the next message of the flow is delivered once, and performs when its home lets it. -/
def execFlowMessageArrival (flow : Nat) (s : State) : Host.Outcome State Fault Refusal :=
  match findKey Flow.id flow s.flows with
  | none => .next s
  | some f =>
    match s.ready f with
    | some (m, n) => .next ((s.deliver f m n).tryMessage { m with delivered := true })
    | none => .next s

/-- The links by which what comes back in a flow crosses, when each has a permit for it (R442). -/
def State.backWay (s : State) (f : Flow) : Option (List Nat) :=
  ((s.flowLink f).map (linksVia f.die)).filter (fun way => way.all (s.permittedBack f.die f.cls))

/-- FLOW_ACKNOWLEDGEMENT: the messages at the front of the flow that have performed are free. The acknowledgement spends a permit of
the far side of each link. -/
def execFlowAcknowledgement (flow : Nat) (s : State) : Host.Outcome State Fault Refusal :=
  match findKey Flow.id flow s.flows with
  | none => .next s
  | some f =>
    match s.backWay f with
    | none => .next s
    | some way =>
      .next (if (f.held.head?).any Message.performed then
        let s := way.foldl (fun s n => s.spendBack f.die f.cls n) s
        { s with flows := s.flows.map (fun x => if x.id = f.id then { x with held := x.held.dropWhile Message.performed } else x) }
      else s)

/-! ### Refusals by a peer (R444) -/

/-- An operation of a warp was refused: one record, whichever of its messages the peer refuses. -/
def State.tellRefusal (s : State) (f : Sender) : State :=
  if f.told then s
  else
    let mark := fun (x : Sender) => if x.core = f.core ∧ x.op = f.op then { x with told := true } else x
    { s with
      sbuf := s.sbuf.map (fun (e : StoreEntry) => { e with from_ := mark e.from_ })
      flows := s.flows.map (fun (x : Flow) => { x with held := x.held.map (fun (m : Message) => { m with from_ := mark m.from_ }) })
      : State }.peerRefused f 1 f.va

/-- The lanes of a fragment whose remote read was refused. -/
def State.denyLanes (s : State) (ref : FragRef) (line : Nat) : State :=
  match s.warp? ref.warp with
  | none => s
  | some w =>
    match w.frag? ref.frag with
    | none => s
    | some f =>
      match f.wait with
      | .remote _ _ _ lanes =>
        s.setWarp (w.setFrag { f with denied := f.denied ||| maskOf (fun k => lanes.any (fun l => l.1 == k && lineOf l.2.2 == line)) })
      | _ => s

/-- The refusal of a message of a copy, for its record and its zeros. -/
def State.refuseCopy (s : State) (uid : Nat) (lines : List Nat) (k va : Nat) : State :=
  match s.copy? uid with
  | none => s
  | some c =>
    s.setCopy { c with refusedLines := c.refusedLines ++ lines, refusedMask := c.refusedMask ||| 2 ^ k, refusedVa := some (c.refusedVa.getD va) }

/-- A refused message counts as performed, and writes nothing. The refusal of a prefetch tells no one, as `VPREF` and `CPYP` never fault
(R223, R323). -/
def State.refuseMessage (s : State) (m : Message) : State :=
  let s := s.mapMessage m.uid (fun m => { m with performed := true })
  match m.kind with
  | .read frag => (s.denyLanes frag (lineOf m.key)).tellRefusal m.from_
  | .copyRead c => s.refuseCopy c [lineOf m.key] 0 m.from_.va
  | .prefetch => s
  | .notice => s
  | .write _ => s.tellRefusal m.from_
  | .copyWrite c k _ => s.refuseCopy c [] k m.from_.va
  | .atomic frag _ req _ => (s.putOld frag req.lane 0 true).tellRefusal m.from_

/-- PEER_REFUSAL: the next message of a flow to a peer is acknowledged with a refusal. -/
def execPeerRefusal (flow : Nat) (s : State) : Host.Outcome State Fault Refusal :=
  match findKey Flow.id flow s.flows with
  | none => .next s
  | some f =>
    match s.ready f, f.target with
    | some (m, n), .peer _ => .next ((s.deliver f m n).refuseMessage m)
    | _, _ => .next s

/-! ### Permits and their audit (R442, R443) -/

/-- PERMIT_RETURN: a receiver frees a slot; of link 0, either die's. -/
def execPermitReturn (link cls : Nat) (s : State) : Host.Outcome State Fault Refusal :=
  match s.links[link]? with
  | none => .next s
  | some l =>
    let t := (permitTable link).getD cls 0
    .next (if l.carries = false then s
      else if l.permits.getD cls 0 < t then
        { s with links := s.links.setIfInBounds link { l with permits := l.permits.setIfInBounds cls (l.permits.getD cls 0 + 1) } }
      else if l.far.getD cls 0 < t then
        { s with links := s.links.setIfInBounds link { l with far := l.far.setIfInBounds cls (l.far.getD cls 0 + 1) } }
      else s)

/-- A link that retrains: it carries nothing, and its senders hold their messages. -/
def Link.retrain (l : Link) : Link :=
  { l with state := .training, rtrn := if l.rtrn = 255 then 255 else l.rtrn + 1, fails := 0, permits := Vector.replicate 4 0,
           far := Vector.replicate 4 0 }

def State.setLink (s : State) (n : Nat) (l : Link) : State := { s with links := s.links.setIfInBounds n l }

/-- Whether a flow's messages cross a link. -/
def State.flowCrosses (s : State) (f : Flow) (n : Nat) : Bool := (s.flowLink f).any (fun l => (linksVia f.die l).contains n)

/-- The contexts with an unacknowledged message on a link. -/
def State.contextsOn (s : State) (n : Nat) : List (Nat × Nat) :=
  (s.ctxs.filter (fun c =>
    s.flows.any (fun f => s.flowCrosses f n && f.held.any (fun m => m.from_.part == c.part && m.from_.ctx == c.slot)))).map
    (fun c => (c.part, c.slot))

/-- Whether the access table of a link admits some access of a master of a partition (R392); links 0 and 13 have none. -/
def State.linkAdmits (s : State) (n part : Nat) : Bool :=
  if n = 0 ∨ n = 13 then true
  else s.acc.any (fun a => a.target == 71 + n && accInRange a.target a.word && a.word.getLsbD 15 && field a.word.toNat 12 3 == part &&
    decide (field a.word.toNat 16 56 ≤ field a.word.toNat 72 56) && (a.word.getLsbD 0 || a.word.getLsbD 1))

/-- The contexts that a `LOSTPERMIT` record goes to. -/
def State.lostPermitTo (s : State) (n : Nat) : List (Nat × Nat) :=
  let xs := s.contextsOn n
  if xs.isEmpty then (s.ctxs.filter (fun c => c.state != .destroying && s.linkAdmits n c.part)).map (fun c => (c.part, c.slot)) else xs

/-- A - T as a saturating signed 16-bit field. -/
def permitDelta (a t : Nat) : Nat := wrapTo 16 (clampInt ((a : Int) - t) (-32768) 32767)

/-- The permits of a class and direction that the audit finds: `k` is twice the class, plus 1 for what the device receives. -/
def Link.auditHeld (l : Link) (k : Nat) : Nat := (if k % 2 = 1 then l.far else l.permits).getD (k / 2) 0

/-- What an audit finds beside the permits held of a class: of what the device sends, and of what it receives. -/
def auditFound (c : ClassAudit) : List Nat := [c.sentOccupied + c.sentReturning, c.receivedOccupied + c.receivedReturning]

/-- PERMIT_AUDIT: in each class and direction, the permits held, the slots occupied and the permits returning must make the
configured count. The event gives the last two of each class; the record of an audit that finds several mismatches describes the first
(log entry 86). -/
def execPermitAudit (link : Nat) (c0 c1 c2 c3 : ClassAudit) (s : State) : Host.Outcome State Fault Refusal :=
  match s.links[link]? with
  | none => .next s
  | some l =>
    if l.carries = false then .next s
    else
      let l := { l with audits := l.audits + 1 }
      let total := fun (k : Nat) => l.auditHeld k + (([c0, c1, c2, c3].flatMap auditFound).getD k 0)
      let t := fun (k : Nat) => (permitTable link).getD (k / 2) 0
      match (List.range 8).find? (fun k => total k != t k) with
      | none => .next (s.setLink link l)
      | some k =>
        let r : Record :=
          { eventRecord (link * 2 ^ 24 + k / 2 * 2 ^ 22 + (if k % 2 = 1 then 2 ^ 21 else 0) + permitDelta (total k) (t k)) 0 0 0 0 0 0 with
            code := 13, aux := l.audits }
        .next ((s.lostPermitTo link).foldl (fun s c => s.postRecord c.1 c.2 r (Live.plain 0 13)) (s.setLink link l.retrain))

/-! ### Link states (R436, R437, R447) -/

/-- LINK_ERROR: an error that needs retraining. -/
def execLinkError (link : Nat) (s : State) : Host.Outcome State Fault Refusal :=
  match s.links[link]? with
  | none => .next s
  | some l => .next (if l.carries then s.setLink link l.retrain else s)

/-- An error that link-level retry corrects, on a link that carries traffic: CERR saturates (R447). -/
def State.retryLink (s : State) (link : Nat) : State :=
  match s.links[link]? with
  | none => s
  | some l => if l.carries then s.setLink link { l with cerr := if l.cerr = 0xFFFF then l.cerr else l.cerr + 1 } else s

/-- LINK_TRAINING_DONE: at full width Up, at reduced width Degraded, with every permit restored. -/
def execLinkTrainingDone (link : Nat) (full : Bool) (s : State) : Host.Outcome State Fault Refusal :=
  match s.links[link]? with
  | none => .next s
  | some l =>
    .next (if l.state = .training then
      s.setLink link { l with state := if full then .up else .degraded, fails := 0, permits := permitTable link, far := permitTable link }
    else s)

/-- LINK_TRAINING_FAIL: the third failure in a row takes the link Down. -/
def execLinkTrainingFail (link : Nat) (s : State) : Host.Outcome State Fault Refusal :=
  match s.links[link]? with
  | none => .next s
  | some l =>
    .next (if l.state = .training then
      s.setLink link (if 2 ≤ l.fails then { l with state := .down, fails := 0 } else { l with fails := l.fails + 1 })
    else s)

/-- LINK_ENABLE: the driver enables one of links 1 to 13. At step 2 of the start a device offers none (R457). -/
def execLinkEnable (link : Nat) (s : State) : Host.Outcome State Fault Refusal :=
  match s.links[link]? with
  | none => .next s
  | some l =>
    if link = 0 ∨ s.firmware.verified = false then .next s
    else .next (s.setLink link (if l.state = .down then { l with state := .training, enabled := true, fails := 0 } else { l with enabled := true }))

/-- LINK_DISABLE: the link goes Down; its messages move to other paths or are held (R439, R441). -/
def execLinkDisable (link : Nat) (s : State) : Host.Outcome State Fault Refusal :=
  match s.links[link]? with
  | none => .next s
  | some l =>
    if link = 0 ∨ s.firmware.verified = false then .next s
    else .next (s.setLink link { l with state := .down, enabled := false, fails := 0, permits := Vector.replicate 4 0, far := Vector.replicate 4 0 })

/-- The width code and the whole status word of a link (R447). -/
def Link.stateCode (l : Link) : Nat :=
  match l.state with
  | .down => 0 | .training => 1 | .up => 2 | .degraded => 3

def Link.status (l : Link) : Nat :=
  let width := match l.state with | .up => 2 | .degraded => 1 | _ => 0
  l.stateCode * 2 ^ 28 + width * 2 ^ 24 + l.rtrn.toNat * 2 ^ 16 + l.cerr.toNat

/-! ### Remote replies (R255, R444 to R446) -/

/-- REMOTE_WAIT_THRESHOLD: a wait for the host or a peer longer than RWTH is a blocking point. -/
def execRemoteWaitThreshold (warp frag : Nat) (s : State) : Host.Outcome State Fault Refusal :=
  match s.warp? warp with
  | none => .next s
  | some w =>
    match w.frag? frag, (s.group? w.group).bind s.ctxOf with
    | some f, some c =>
      match f.wait with
      | .remote since atomic false lanes =>
        .next (if s.olderThan since c.rwth.toNat && lanes.any (fun l => decide (spaceSize ≤ l.2.2)) then
          s.setWarp (w.setFrag { f with wait := .remote since atomic true lanes })
        else s)
      | _ => .next s
    | _, _ => .next s

/-- The answers to the requests of a fragment, one for each line, once every home has answered and the far sides have the permits
(R436, R442). -/
def State.answered (s : State) (ref : FragRef) (core : Nat) (lanes : List (Nat × Nat × Nat)) : Option State :=
  if s.allHeld.any (fun m => !m.performed && (match m.kind with | .read f => f == ref | _ => false)) then none
  else s.allReturn (dieOf core) 0 ((distinct (lanes.map (fun l => lineOf l.2.2))).map (fun l => 128 * l))

/-- The replies to the requests of a remote atomic, once every lane has its old value and the far sides have the permits. -/
def State.replied (s : State) (r : RemoteReq) : Option State :=
  if r.reqs.all (fun q => r.olds.any (fun o => o.1 == q.lane)) then s.allReturn (dieOf r.core) 1 (r.reqs.map AtomReq.key) else none

/-- The reply of a remote atomic: its results are written, and the instruction completes. The atomic of a fragment that has ended
performs all the same (R104). -/
def State.atomicReply (s : State) (r : RemoteReq) : State :=
  { s with remotes := s.remotes.filter (fun x => x.frag != r.frag) }.completeFrag r.frag (fun w => r.dest.write w r.olds)

/-- LINE_REQUEST_COMPLETE: the reply of a remote request comes to its core; a request that waits at a home slice of the device performs
once nothing holds its line. -/
def execLineRequestComplete (core warp frag : Nat) (s : State) : Host.Outcome State Fault Refusal :=
  let ref : FragRef := { warp := warp, frag := frag }
  match s.remotes.find? (fun r => r.frag == ref), s.warp? warp with
  | some r, _ =>
    .next (((s.replied r).filter (fun _ => r.core == core)).elim s (fun s => s.atomicReply r))
  | none, none => .next s
  | none, some w =>
    match (w.frag? frag).filter (fun _ => w.core == core) with
    | none => .next s
    | some f =>
      match f.wait with
      | .remote _ _ _ lanes =>
        .next ((s.answered ref w.core lanes).elim s (fun s => s.setWarp (w.setFrag { f.retry with granted := true, denied := f.denied })))
      | .line l => .next (if s.copyOwns l then s else s.retryFrag ref)
      | .snoop l => .next (if s.hostHeld.contains l then s else s.retryFrag ref)
      | .promotion l => .next (if (s.tagsOf l).any Tag.draining then s else s.retryFrag ref)
      | _ => .next s

/-! ### The host and the peers (R249, R320, R440) -/

/-- The lines of a run of bytes. -/
def linesOf (addr n : Nat) : List Nat := (List.range ((addr + n - 1) / 128 + 1 - addr / 128)).map (fun i => addr / 128 + i)

/-- Whether the host's path reaches the homes of device lines: link 13, and link 0 beyond die 0 (R18, R440). -/
def State.hostReaches (s : State) (lines : List Nat) : Bool :=
  s.linkUp 13 && lines.all (fun l => lineDie l == 0 || s.linkUp 0)

/-- The lines of an access that comes over a link, by home: one message for each die (R18). -/
def homeDies (lines : List Nat) : List Nat := distinct (lines.map lineDie)

/-- A request from outside crosses to the homes of its lines, on permits of the far side, and the device's answers are messages of
their own flow; none while some path or permit is lacking (R436, R441, R442). -/
def State.letIn (s : State) (from_ : Home) (cls : Nat) (lines : List Nat) : Option State :=
  (homeDies lines).foldl (fun s die =>
    s.bind (fun s =>
      if s.mayReturn die cls (from_.key 0) then
        some ((s.returns die cls (from_.key 0)).send cls (Sender.ofDie die 6 0) 0 (from_.key 0) [] .notice)
      else none)) (some s)

/-- Whether the device holds a line of host memory in ownership: an atomic or a contribution of R314 has performed there and is not yet
written back (R255, R440, R445). -/
def State.deviceHolds (s : State) (line : Nat) : Bool :=
  s.allHeld.any (fun m => m.performed && lineOf m.key == line && (match m.kind with
    | .atomic .. => true
    | .copyWrite _ _ reduce => reduce.isSome
    | _ => false))

/-- HOST_MEM_ACCESS: a host access performs, in device memory at the home slice of its line, which the host may hold afterwards, and
in host memory at its key. It waits while a copy owns the line (R320) or the device does (R255). -/
def execHostMemAccess (addr : Nat) (data : List (BitVec 8)) (write : Bool) (s : State) : Host.Outcome State Fault Refusal :=
  let n := max data.length 1
  let lines := linesOf addr n
  let act := fun (s : State) => if write then { s with mem := memWrites s.mem addr data } else s
  if addr + n ≤ deviceBytes then
    .next (if lines.any s.copyOwns then s
      else (s.letIn .host (if write then 1 else 0) lines).elim s (fun s =>
        { act s with hostHeld := lines.foldl (fun h l => insertBy id l h) s.hostHeld }))
  else if spaceSize ≤ addr ∧ addr + n ≤ 2 * spaceSize then .next (if lines.any s.deviceHolds then s else act s)
  else .next s

/-- The bytes of an access of a peer. -/
def PeerOp.size : PeerOp → Nat
  | .load => 1
  | .store data => data.length
  | .atomic _ n _ => n

/-- The class of an access of a peer (R273), and whether it is one that the device serves (R227). -/
def PeerOp.cls : PeerOp → Nat
  | .load => 0
  | _ => 1

def PeerOp.legal (op : PeerOp) (addr : Nat) : Bool :=
  match op with
  | .atomic f z _ => [4, 8].contains z && addr % z == 0 && decide (f < 15)
  | _ => true

/-- A peer accesses device memory over its ports, at the home slices of its lines; it waits while a copy owns one (R320) or the host
may hold one (R440). -/
def State.peerAccess (s : State) (n addr : Nat) (op : PeerOp) : State :=
  let lines := linesOf addr (max op.size 1)
  if deviceBytes < addr + op.size ∨ lines.any (fun l => s.copyOwns l || s.hostHeld.contains l) ∨ op.legal addr = false then s
  else match s.letIn (.peer n) op.cls lines with
    | none => s
    | some s =>
      match op with
      | .load => s
      | .store data => { s with mem := memWrites s.mem addr data }
      | .atomic f z b => { s with mem := memSetNat s.mem addr z (atomicValue f z (memNat s.mem addr z) b.toNat) }

/-- BACK_INVALIDATE_RESPONSE: the host no longer holds the line; its response comes over link 13, and over link 0 to a home on die 1
(R18, R440). -/
def execBackInvalidateResponse (line : Nat) (s : State) : Host.Outcome State Fault Refusal :=
  .next (if s.hostReaches [line] then { s with hostHeld := s.hostHeld.filter (fun l => l != line) } else s)

/-! ### Mailboxes (R346) -/

/-- The oldest message that is not yet receivable becomes so. -/
def receiveNext : List MboxMsg → List MboxMsg
  | [] => []
  | m :: ms => if m.receivable then m :: receiveNext ms else { m with receivable := true } :: ms

/-- MESSAGE_RECEIVABLE. -/
def execMessageReceivable (m : Nat) (s : State) : Host.Outcome State Fault Refusal :=
  match s.mbox? m with
  | none => .next s
  | some b => .next (s.setMbox { b with msgs := receiveNext b.msgs })

end Sys2Proof.Machine
end

