-- ==== Sys2Proof/Machine/Driver.lean ====
section
/-! DEFINITION. What the driver writes: context commands, the debug registers, partitions, mailboxes, access tables, the start, and
every other register of the windows (R343, R390 to R397, R405, R424, R439, R448, R455). -/

namespace Sys2Proof.Machine

/-- A partition's registers, and a change of them. -/
def State.part (s : State) (p : Nat) : Part := s.parts.getD p Part.reset
def State.setPart (s : State) (p : Nat) (P : Part) : State := { s with parts := s.parts.setIfInBounds p P }

def State.countSampler (s : State) : State := { s with counters := { s.counters with samplers := satInc s.counters.samplers } }

/-! ### Commands (R390) -/

/-- The fields of a command word. -/
def cmdOp (x : Dword) : Nat := field x.toNat 0 8
def cmdSlot (x : Dword) : Nat := field x.toNat 8 6
def cmdArg (x : Dword) : Word := highHalf x

def cmdWord (op slot : Nat) (arg : Word) : Dword := BitVec.ofNat 64 (arg.toNat * 2 ^ 32 + slot % 64 * 2 ^ 8 + op)

/-- Whether a command is refused. -/
def State.cmdRefused (s : State) (part : Nat) (x : Dword) : Bool :=
  field x.toNat 14 18 != 0 ||
    (match cmdOp x, (s.ctx? part (cmdSlot x)).map Ctx.state with
      | 1, none => !s.started
      | 2, some .active => false
      | 3, some .suspended => false
      | 4, some _ => false
      | _, _ => true)

/-- SAVE begins: no further admission, and a pre-emption request for every resident group (R380). -/
def State.beginSave (s : State) (c : Ctx) : State :=
  let gs := s.groups.filter (fun g => g.part == c.part && g.ctx == c.slot && g.resident)
  gs.foldl (fun s g => s.requestPreempt g.uid none) (s.setCtx { c with saving := true })

/-- The registers of the context block (R396). -/
def savedCsrs : List Nat := (List.range 6).map (· + 2) ++ (List.range 7).map (· + 0x10) ++ (List.range 5).map (· + 0x18)

/-- The context and format blocks, 4 KiB with their zeros. -/
def Ctx.image (c : Ctx) : List Host.Cell :=
  let m := savedCsrs.foldl (fun m n => memSetNat m (4 * n) 4 (c.csr n).toNat) []
  let m := memSetNat (memSetNat m 0xF0 4 c.seq.toNat) 0xF4 4 c.gridn.toNat
  putEach m 0x100 4 (c.fmt.toList.map BitVec.toNat)

/-- The context as its block in memory gives it. -/
def Ctx.ofImage (c : Ctx) (m : List Host.Cell) : Ctx :=
  let word := fun a => BitVec.ofNat 32 (memNat m a 4)
  let c := savedCsrs.foldl (fun c n => c.setCsr n (word (4 * n))) c
  { c with seq := (word 0xF0).setWidth 24, gridn := word 0xF4, fmt := Vector.ofFn (fun i => word (0x100 + 4 * i.val)) }

/-- Whether the blocks have a bit that R395 or R396 makes zero, or a size that R395 does not list: R3 lets the device ignore neither
(log entry 114). -/
def Ctx.badImage (c : Ctx) (m : List Host.Cell) : Bool :=
  (c.ofImage m).image != m || savedCsrs.any (fun n => csrBad n (BitVec.ofNat 32 (memNat m (4 * n) 4)))

/-- RESUME: the block is read back, groups evicted for the SAVE become resumable, and those marked while the context was
Suspended count from now (R385, R396). -/
def State.resumeCtx (s : State) (c : Ctx) (m : List Host.Cell) : State :=
  let s := s.setCtx { c.ofImage m with state := .active, saving := false }
  let mine := s.groups.filter (fun g => g.part == c.part && g.ctx == c.slot)
  let marked := sortBy (fun (g : Group) => g.resumable.getD 0) (mine.filter (fun g => g.resumable.isSome))
  let s := marked.foldl (fun s g => (s.setGroup { g with resumable := none }).makeResumable g.uid) s
  (mine.filter (fun g => g.resumable.isNone && g.preempt.any (fun p => p.cause.isNone))).foldl
    (fun s g => s.makeResumable g.uid) s

/-- DESTROY begins: the grids are Abandoned, every warp on a core ends as by KILL, and groups that hold no core are gone. None of them
is unplaced any more (R385). -/
def State.beginDestroy (s : State) (c : Ctx) : State :=
  let own := fun (g : Group) => g.part == c.part && g.ctx == c.slot
  let on := fun (g : Group) => own g && g.state.onCores
  let killed := (s.groups.filter on).map (fun g => (g.uid, (s.warpsOf g).map (fun w => (w.role, w.index))))
  let ids := (s.groups.filter (fun g => own g && !g.state.onCores)).map Group.uid
  let s := s.setCtx { c with
    state := .destroying
    saving := false
    live := []
    answers := []
    futures := []
    heldFaults := []
    heldRequests := []
    countedFaults := 0
    countedRequests := 0
    adds := []
    queues := c.queues.map (fun q => { q with blocked := none, future := none, shooting := none }) }
  let s := { s with
    grids := s.grids.map (fun (g : Grid) => if g.part = c.part ∧ g.ctx = c.slot then { g with state := .abandoned } else g)
    warps := s.warps.filter (fun w => !ids.contains w.group)
    groups := (s.groups.filter (fun g => !own g || g.resident)).map (fun g =>
      if own g && !g.state.onCores then { g with state := .retiring } else g) }
  let s := (List.range 48).foldl State.grantOnCore (ids.foldl State.releasePressed s)
  killed.foldl (fun s k => s.kill k.1 false k.2) s

/-- A command begins; one that the device completes at once answers its status. A RESUME whose context block the access tables
refuse, that lies outside device memory, or that has a bit which must be zero, is refused, and one whose block is out of reach is in
progress until it is not (log entries 18, 83 and 114). -/
def State.beginCmd (s : State) (part : Nat) (x : Dword) : State × Option (BitVec 2) :=
  if s.cmdRefused part x then (s, some 2)
  else match cmdOp x, s.ctx? part (cmdSlot x) with
    | 1, _ => ({ s with ctxs := insertBy Ctx.key (Ctx.created part (cmdSlot x) (cmdArg x)) s.ctxs }, some 1)
    | 2, some c => (s.beginSave c, none)
    | 3, some c =>
      if deviceBytes < c.savebase.toNat + 0x1000 ∨ s.rangeAllows c.headbox c.savebase.toNat 0x1000 false = false then (s, some 2)
      else match s.saveAccess c 0 0 0x1000 false with
        | none => (s, none)
        | some s =>
          let m := memSlice s.mem c.savebase.toNat 0x1000
          if c.badImage m then (s, some 2) else (s.resumeCtx c m, some 1)
    | _, some c => (s.beginDestroy c, none)
    | _, none => (s, some 2)

/-- The oldest command of a partition begins; when it is complete, so does the next one. -/
def runCmds : Nat → State → Nat → State
  | 0, s, _ => s
  | fuel + 1, s, part =>
    match (s.part part).cmds with
    | [] => s
    | x :: _ =>
      match s.beginCmd part x with
      | (s, none) => s
      | (s, some st) =>
        let P := s.part part
        let rest := P.cmds.drop 1
        runCmds fuel (s.setPart part { P with cmds := rest, lastStat := if rest.isEmpty then st else P.lastStat }) part

/-- A command word is written: CMDST describes it, and it waits behind the earlier ones. -/
def State.writeCmd (s : State) (part : Nat) (x : Dword) : State :=
  if 6 ≤ part ∨ s.driverReaches = false then s
  else
    let P := s.part part
    let s := s.setPart part { P with cmds := P.cmds ++ [x], lastOp := BitVec.ofNat 8 (cmdOp x), lastStat := 0 }
    if P.cmds.isEmpty then runCmds 1 s part else s

/-- A RESUME in progress is tried again. -/
def State.retryResume (s : State) : State :=
  (List.range 6).foldl (fun s p => if ((s.part p).cmds.head?).any (fun x => cmdOp x == 3) then runCmds (s.part p).cmds.length s p else s) s

/-- The command in progress ends with a status. -/
def State.finishCmd (s : State) (part : Nat) (st : BitVec 2) : State :=
  let P := s.part part
  let rest := P.cmds.drop 1
  runCmds (rest.length + 1) (s.setPart part { P with cmds := rest, lastStat := if rest.isEmpty then st else P.lastStat }) part

/-- Whether the command in progress in a partition is one of an op for a slot. -/
def State.inProgress (s : State) (part slot op : Nat) : Bool :=
  ((s.part part).cmds.head?).elim false (fun x => cmdOp x == op && cmdSlot x == slot)

/-- CREATE, SAVE, RESUME and DESTROY are written to CMD. -/
def execCreate (part slot : Nat) (arg : BitVec 32) (s : State) : Host.Outcome State Fault Refusal :=
  .next (s.writeCmd part (cmdWord 1 slot arg))

def execSave (part slot : Nat) (s : State) : Host.Outcome State Fault Refusal := .next (s.writeCmd part (cmdWord 2 slot 0))

def execResume (part slot : Nat) (s : State) : Host.Outcome State Fault Refusal := .next (s.writeCmd part (cmdWord 3 slot 0))

def execDestroy (part slot : Nat) (s : State) : Host.Outcome State Fault Refusal := .next (s.writeCmd part (cmdWord 4 slot 0))

/-- Whether nothing of a context is on a core or under way. -/
def State.quiet (s : State) (c : Ctx) : Bool :=
  let own := fun (g : Group) => g.part == c.part && g.ctx == c.slot
  !s.groups.any (fun g => own g && g.resident) && !s.copies.any (fun x => x.part == c.part && x.ctx == c.slot) &&
    !s.engines.any (fun o => (s.group? o.group).elim false own)

/-- SAVE_COMPLETE: the blocks are written and the context is Suspended; a save area without room for them raises SAVEFULL
once. The SAVE of a context that a machine check ended is refused. -/
def execSaveComplete (part slot : Nat) (s : State) : Host.Outcome State Fault Refusal :=
  match s.ctx? part slot with
  | none => .next s
  | some c =>
    if c.saving = false ∨ s.inProgress part slot 2 = false then .next s
    else if c.state ≠ .active then .next ((s.setCtx { c with saving := false }).finishCmd part 2)
    else if s.quiet c = false ∨ c.updating.isEmpty = false then .next s
    else if c.savesize.toNat * 4096 < 0x9000 then
      .next (if c.saveFull then s
        else (s.setCtx { c with saveFull := true }).postRecord part slot (eventRecord 3 0 0 0 0 0 0) (Live.plain 0 0))
    else if deviceBytes < c.savebase.toNat + 0x1000 then .fault .noSuchPhysicalAddress
    else match s.writeSave c 0 0 0x1000 c.image with
      | none => .next s
      | some s => .next ((s.setCtx { c with state := .suspended, saving := false, saveFull := false }).finishCmd part 1)

/-- The grids of a context. -/
def State.gridsOf (s : State) (part slot : Nat) : List Nat :=
  (s.grids.filter (fun g => g.part == part && g.ctx == slot)).map Grid.uid

/-- What a context has sent, or asks, over paths that are all Down is discarded unperformed (R441). -/
def State.discardUnsent (s : State) (part slot : Nat) : State :=
  let mine := fun (f : Sender) => f.part == part && f.ctx == slot
  { s with
    flows := s.flows.map (fun (f : Flow) =>
      if s.pathsDown f.die f.target then { f with held := f.held.filter (fun m => !mine m.from_ || m.delivered) } else f)
    remotes := s.remotes.filter (fun r => !mine r.from_ || r.reqs.all (fun q =>
      r.olds.any (fun o => o.1 == q.lane) || !s.pathsDown (dieOf r.core) (homeOf q.key))) }

/-- The directory entries of a context's records become zero again, those that the access tables let the headbox write, as far as it
reaches them now. -/
def State.clearDirectory (s : State) (c : Ctx) : State :=
  c.placed.foldl (fun s p =>
    let done := fun (s : State) => (s.ctx? c.part c.slot).elim s (fun c => s.setCtx { c with placed := c.placed.filter (fun q => q.2.2 != p.2.2) })
    if s.rangeAllows c.headbox (c.savebase.toNat + dirEntry p.2.2) 8 true then (s.writeDir c 0 p.2.2 0).elim s done else done s) s

/-- DESTROY_COMPLETE: once nothing that the context issued is under way, its slot is free. -/
def execDestroyComplete (part slot : Nat) (s : State) : Host.Outcome State Fault Refusal :=
  match s.ctx? part slot with
  | none => .next s
  | some c =>
    if c.state ≠ .destroying ∨ s.inProgress part slot 4 = false then .next s
    else
      let s := s.discardUnsent part slot
      let grids := s.gridsOf part slot
      if s.quiet c = false ∨ s.remotes.any (fun r => grids.contains r.grid) = true ∨
          s.allHeld.any (fun m => m.from_.part == part && m.from_.ctx == slot && !m.performed) = true then .next s
      else
        let s := s.clearDirectory c
        if (s.ctx? part slot).any (fun c => !c.placed.isEmpty) then .next s
        else .next ({ s with
          ctxs := s.ctxs.filter (fun x => x.key != c.key)
          grids := s.grids.filter (fun g => !(g.part == part && g.ctx == slot))
          tlb := s.tlb.filter (fun t => !(t.part == part && t.slot == slot)) }.finishCmd part 1)

/-! ### The debug registers (R405) -/

/-- A group that the debug registers name: one that exists, or one of a grid that is not yet made a group. -/
inductive DebugTarget where
  | group (uid : Nat)
  | unmade (grid linear : Nat)
  deriving DecidableEq, Repr

/-- The group named by DBG0 and DBG1 in a context slot, admitted and not yet retired. -/
def State.debugTarget (s : State) (part slot : Nat) : Option DebugTarget :=
  let P := s.part part
  let x := lowHalf P.dbg0
  let y := highHalf P.dbg0
  let z := lowHalf P.dbg1
  match s.grids.find? (fun g => g.part == part && g.ctx == slot && g.gridn == highHalf P.dbg1) with
  | none => none
  | some grid =>
    if grid.x ≤ x.toNat ∨ grid.y ≤ y.toNat ∨ grid.z ≤ z.toNat then none
    else match s.groups.find? (fun g => g.grid == grid.uid && g.gx == x && g.gy == y && g.gz == z) with
      | some g => some (.group g.uid)
      | none =>
        let n := x.toNat + grid.x * (y.toNat + grid.y * z.toNat)
        if grid.next ≤ n ∧ grid.killed.contains n = false then some (.unmade grid.uid n) else none

/-- The warps of a group that are live, as role and `%warp`. -/
def State.liveWarps (s : State) (g : Group) : List (Role × Nat) :=
  (if g.state = .evicted then g.savedWarps.map (fun w => (w.role, w.index)) else (s.warpsOf g).map (fun w => (w.role, w.index))).filter
    (fun k => !g.kills.any (fun x => x.role == k.1 && x.index == k.2))

/-- Kills held until a group resumes. -/
def State.holdKills (s : State) (gid : Nat) (ks : List (Role × Nat)) : State :=
  match s.group? gid with
  | none => s
  | some g =>
    (s.setGroup { g with kills := g.kills ++ ks.map (fun k => { role := k.1, index := k.2, debug := false, upto := none }) }).makeResumable gid

/-- KILL of warps `ks` of a group, every live one when `all` is set. -/
def State.debugKill (s : State) (g : Group) (all : Bool) (ks : List (Role × Nat)) : State :=
  let done := fun (s : State) => s.setDbgst g.part 1
  match g.state with
  | .evicting =>
    if all then (s.setGroup { g with doomed := true }).setDbgst g.part 0 else done (s.holdKills g.uid ks)
  | .evicted =>
    if all then ((s.setGroup { g with doomed := true }).setDbgst g.part 0).endDoomed g.uid else done (s.holdKills g.uid ks)
  | .resumed => done (s.holdKills g.uid ks)
  | .pending =>
    match s.grid? g.grid with
    | none => done (s.dropGroup g)
    | some grid => done (nextGroup (grid.killed.length + 1) (s.dropGroup g) g.grid)
  | _ => if ks.isEmpty then done s else (s.setDbgst g.part 0).kill g.uid true ks

/-- A write of DBGCMD. -/
def State.writeDbgcmd (s : State) (part : Nat) (x : Dword) : State :=
  let n := x.toNat
  let slot := field n 0 6
  let all := n.testBit 16
  let key := (roleOfNat (field n 22 2), field n 24 8)
  let bad := field n 32 32 != 0 || field n 22 2 == 3 || field n 17 5 != 0 || field n 8 8 != 1 || field n 6 2 != 0
  let st := (s.ctx? part slot).map Ctx.state
  if bad = true ∨ (st ≠ some .active ∧ st ≠ some .suspended ∧ st ≠ some .faulted) then s.setDbgst part 2
  else match s.debugTarget part slot with
    | none => s.setDbgst part 2
    | some (.unmade grid n) =>
      if all then
        match s.grid? grid with
        | none => s.setDbgst part 2
        | some g => (s.setGrid { g.retireOne with killed := g.killed ++ [n] }).setDbgst part 1
      else s.setDbgst part 2
    | some (.group gid) =>
      match s.group? gid with
      | none => s.setDbgst part 2
      | some g =>
        if all then s.debugKill g true (s.liveWarps g)
        else if (s.liveWarps g).contains key then s.debugKill g false [key]
        else s.setDbgst part 2

/-- DEBUG_KILL. -/
def execDebugKill (part : Nat) (cmd : BitVec 64) (s : State) : Host.Outcome State Fault Refusal :=
  .next (if 6 ≤ part ∨ s.driverReaches = false then s else s.writeDbgcmd part cmd)

/-! ### Partitions (R391) -/

/-- The mask of a partition in a PARTQ word. -/
def partMask (x : Dword) (n : Nat) : BitVec 6 := BitVec.ofNat 6 (field x.toNat (8 * n) 6)

/-- Reserved bits of a PARTQ word. -/
def partReserved (x : Dword) : Bool := field x.toNat 48 16 != 0 || (List.range 6).any (fun n => field x.toNat (8 * n + 6) 2 != 0)

def partOverlap (x : Dword) : Bool :=
  (List.range 6).any (fun a => (List.range 6).any (fun b => decide (a < b) && partMask x a &&& partMask x b != 0))

/-- The highest quire of a mask. -/
def highestQuire (m : BitVec 6) : Nat := (List.range 6).foldl (fun a q => if m.getLsbD q then q else a) 0

/-- PARTQ_WRITE: the masks are set, or the write is refused. The partitions concerned are those whose mask the write changes, and not
those whose ways and channels move with a lower one's: the model's choice (log entry 43). -/
def execPartqWrite (v : BitVec 64) (s : State) : Host.Outcome State Fault Refusal :=
  let changed := (List.range 6).filter (fun n => (s.part n).mask != partMask v n)
  if s.driverReaches = false then .next s
  else if s.started = false ∨ partReserved v = true ∨ partOverlap v = true ∨ changed.any (fun n => s.ctxs.any (fun c => c.part == n)) = true then
    .next { s with partst := 2 }
  else
    let s := changed.foldl (fun s n =>
      s.setPart n { s.part n with mask := partMask v n, pointer := highestQuire (partMask v n) }) s
    .next { s with partst := 1 }

/-- The quires of a partition. -/
def State.quiresOf (s : State) (p : Nat) : Nat := onesBelow (fun q => (s.part p).mask.getLsbD q) 6

/-- The run of ways of every L2 slice, and of channels of every HBM stack, that a partition holds: its first one, and how many. They
follow those of the lower-numbered partitions; the ones after the last run serve no partition. No access depends on them. -/
def State.partRun (s : State) (p : Nat) : Nat × Nat :=
  ((List.range p).foldl (fun a n => a + 4 * s.quiresOf n) 0, 4 * s.quiresOf p)

/-- The partition that a way, or a channel, serves. -/
def State.servesRun (s : State) (x : Nat) : Option Nat :=
  (List.range 6).find? (fun p => decide ((s.partRun p).1 ≤ x) && decide (x < (s.partRun p).1 + (s.partRun p).2))

/-! ### Mailboxes and access tables (R343, R392) -/

/-- A configuration word that R3 rejects: a bit of [18:12], or an owner of 6 or 7. -/
def mbcfgBad (v : Word) : Bool := field v.toNat 12 7 != 0 || decide (6 ≤ field v.toNat 19 3)

/-- MBCFG_WRITE: a mailbox is configured, closed or opened; clearing EN discards its messages, and counts them. -/
def execMbcfgWrite (m : Nat) (v : BitVec 32) (s : State) : Host.Outcome State Fault Refusal :=
  if 256 ≤ m ∨ mbcfgBad v = true ∨ s.driverReaches = false then .next s
  else
    let msgs := ((s.mbox? m).map Mailbox.msgs).getD []
    if v.getLsbD 31 then .next (s.setMbox { m := m, cfg := v, msgs := msgs })
    else .next (msgs.foldl (fun s _ => { s with counters := { s.counters with messages := satInc s.counters.messages } })
      (s.setMbox { m := m, cfg := v, msgs := [] }))

/-- The place of an access-table entry. -/
def AccEntry.key (a : AccEntry) : Nat := a.target * 32 + a.entry

/-- ACCESS_TABLE_WRITE. -/
def execAccessTableWrite (target entry : Nat) (v : BitVec 128) (s : State) : Host.Outcome State Fault Refusal :=
  if 85 ≤ target ∨ 32 ≤ entry ∨ s.driverReaches = false then .next s
  else .next { s with acc := insertBy AccEntry.key { target := target, entry := entry, word := v } s.acc }

/-! ### The start (R455) -/

/-- START: the first one latches the features; later writes are discarded and counted. A word with a bit of [31:1] is rejected
(R3). -/
def execStart (v : BitVec 32) (s : State) : Host.Outcome State Fault Refusal :=
  if s.driverReaches = false then .next s
  else if s.started then .next s.countSampler
  else if v = 1 then .next { s with started := true, flatch := s.foffer &&& s.fenable }
  else .next s

def State.writeFenable (s : State) (v : Dword) : State := if s.started then s.countSampler else { s with fenable := v }

/-! ### The sampler's registers (R448) -/

/-- SMPCFG: it takes effect at the next sample clock; a sampler that is off has none, and takes it at once. -/
def State.writeSmpcfg (s : State) (part : Nat) (v : Word) : State :=
  let P := s.part part
  if field v.toNat 20 11 ≠ 0 then s.countSampler
  else if P.smpcfg.getLsbD 31 then s.setPart part { P with smpnext := some v }
  else s.setPart part { P with smpcfg := v, smpnext := none }

def execSmpcfg (part : Nat) (v : BitVec 32) (s : State) : Host.Outcome State Fault Refusal :=
  .next (if 6 ≤ part ∨ s.driverReaches = false then s else s.writeSmpcfg part v)

/-- A write of SDROP or SIDLE: 0 clears it. -/
def State.clearSampler (s : State) (part : Nat) (idle : Bool) (v : Word) : State :=
  if v ≠ 0 then s
  else if idle then s.setPart part { s.part part with sidle := 0 }
  else s.setPart part { s.part part with sdrop := 0 }

/-- SAMPLER_COUNTER_CLEAR. -/
def execSamplerCounterClear (part : Nat) (idle : Bool) (v : BitVec 32) (s : State) : Host.Outcome State Fault Refusal :=
  .next (if 6 ≤ part ∨ s.driverReaches = false then s else s.clearSampler part idle v)

def State.writeSmpbase (s : State) (part : Nat) (v : Dword) : State :=
  if field v.toNat 0 12 ≠ 0 then s.countSampler else s.setPart part { s.part part with smpbase := v }

def State.writeSmpsize (s : State) (part : Nat) (v : Word) : State :=
  if v = 0 ∨ queueSizeOk v = false then s.countSampler else s.setPart part { s.part part with smpsize := v }

/-! ### Window registers (R393, R394) -/

/-- A write to a 64-bit register: at once, or when the upper half follows the lower. -/
def State.wide (s : State) (bar at_ offset size : Nat) (v : Dword) : State × Option Dword :=
  let key := bar * 2 ^ 32 + at_
  if size = 8 ∧ offset = at_ then (s, some v)
  else if size = 4 ∧ offset = at_ then
    ({ s with lows := (key, v &&& 0xFFFFFFFF) :: s.lows.filter (fun x => x.1 != key) }, none)
  else if size = 4 ∧ offset = at_ + 4 then
    ({ s with lows := s.lows.filter (fun x => x.1 != key) },
      (s.lows.find? (fun x => x.1 == key)).map (fun x => pairOf (lowHalf x.2) (lowHalf v)))
  else (s, none)

/-- The 64-bit register at `at_`, with what a complete write of it does. -/
def State.writeWide (s : State) (bar at_ offset size : Nat) (v : Dword) (act : State → Dword → State) : State :=
  match s.wide bar at_ offset size v with
  | (s, some x) => act s x
  | (s, none) => s

/-- The 32-bit register at an offset. -/
def State.writeNarrow (s : State) (size : Nat) (v : Dword) (act : State → Word → State) : State :=
  if size = 4 then act s (lowHalf v) else s

/-- The state that an event of another row leaves. -/
def State.after (s : State) (o : Host.Outcome State Fault Refusal) : State :=
  match o with
  | .next s' => s'
  | _ => s

/-- An access-table entry is written as two 8-byte halves, the lower first. -/
def State.writeAcc (s : State) (offset size : Nat) (v : Dword) : State :=
  let a := offset - 0x10000
  let key := 0x10000 + a / 16 * 16
  if size ≠ 8 then s
  else if a % 16 = 0 then { s with lows := (key, v) :: s.lows.filter (fun x => x.1 != key) }
  else match s.lows.find? (fun x => x.1 == key) with
    | none => s
    | some x =>
      let s := { s with lows := s.lows.filter (fun x => x.1 != key) }
      s.after (execAccessTableWrite (a / 0x200) (a % 0x200 / 16) (v ++ x.2) s)

/-- A write to the device window. -/
def State.writeDevice (s : State) (offset size : Nat) (v : Dword) : State :=
  if offset / 8 = 1 then s.writeWide 0 8 offset size v State.writeFenable
  else if offset = 0x18 then s.writeNarrow size v (fun s x => s.after (execStart x s))
  else if offset / 8 = 0x20 then s.writeWide 0 0x100 offset size v (fun s x => s.after (execPartqWrite x s))
  else if 0x1000 ≤ offset ∧ offset < 0x1400 then
    s.writeNarrow size v (fun s x => s.after (execMbcfgWrite ((offset - 0x1000) / 4) x s))
  else if 0x2000 ≤ offset ∧ offset < 0x2800 then
    if size = 2 ∧ field v.toNat 12 3 = 0 then { s with peers := insertBy Prod.fst ((offset - 0x2000) / 2, v.setWidth 16) s.peers } else s
  else if 0x10000 ≤ offset ∧ offset < 0x1AA00 then s.writeAcc offset size v
  else s

/-- A write to an entry of the kernel table (R420, R421). -/
def State.writeKtab (s : State) (part kid bar at_ offset size : Nat) (v : Dword) : State :=
  let put := fun (f : KernelEntry → Dword → KernelEntry) => fun (s : State) x => s.putKernel (f (s.kernelOr part kid) x)
  let r := offset - at_
  if r < 8 then s.writeWide bar at_ offset size v (put (fun k x => { k with wDesc := x }))
  else if r < 16 then s.writeWide bar (at_ + 8) offset size v (put (fun k x => { k with wCode := x }))
  else if r < 24 then s.writeWide bar (at_ + 16) offset size v (put (fun k x => { k with wItab := x }))
  else if r = 24 then
    s.writeNarrow size v (fun s x => s.after (if x.getLsbD 31 then execKernelCommit part kid x s else execKernelWithdraw part kid x s))
  else if r = 28 then s.writeNarrow size v (fun s x => s.putKernel { s.kernelOr part kid with wGen := x })
  else s

/-- A write to a submission-queue descriptor (R424). -/
def State.writeSqd (s : State) (part slot n bar at_ offset size : Nat) (v : Dword) : State :=
  let r := offset - at_
  if r < 8 then s.writeWide bar at_ offset size v (fun s x =>
    match s.ctx? part slot with
    | none => s
    | some c => s.setCtx (c.putQueue { c.queueOr n with base := x }))
  else if r = 8 then s.writeNarrow size v (fun s x => s.writeQueueCfg part slot n x)
  else if r = 16 then s.writeNarrow size v (fun s x => s.writeWptr part slot n x)
  else s

/-- A context state register written by the driver; a new save area may have room. -/
def State.driverCsr (s : State) (part slot n : Nat) (x : Word) : State :=
  let s := s.writeCsr part slot n x
  if n = 0x0C then
    match s.ctx? part slot with
    | none => s
    | some c => s.setCtx { c with saveFull := false }
  else s

/-- A write to the control window of a partition. -/
def State.writeControl (s : State) (part offset size : Nat) (v : Dword) : State :=
  let o := offset % 0x1000000
  let base := offset - o
  let wide := fun (at_ : Nat) (act : State → Dword → State) => s.writeWide 2 (base + at_) offset size v act
  if o / 8 = 0 then wide 0 (fun s x => s.writeCmd part x)
  else if o = 0x100 then s.writeNarrow size v (fun s x => s.writeSmpcfg part x)
  else if o / 8 = 0x21 then wide 0x108 (fun s x => s.writeSmpbase part x)
  else if o = 0x110 then s.writeNarrow size v (fun s x => s.writeSmpsize part x)
  else if o = 0x118 then s.writeNarrow size v (fun s x => s.setPart part { s.part part with stail := x })
  else if o = 0x11C then s.writeNarrow size v (fun s x => s.clearSampler part false x)
  else if o = 0x120 then s.writeNarrow size v (fun s x => s.clearSampler part true x)
  else if o / 8 = 0x40 then wide 0x200 (fun s x => s.setPart part { s.part part with dbg0 := x })
  else if o / 8 = 0x41 then wide 0x208 (fun s x => s.setPart part { s.part part with dbg1 := x })
  else if o / 8 = 0x42 then wide 0x210 (fun s x => s.writeDbgcmd part x)
  else if 0x10000 ≤ o ∧ o < 0x14000 then
    s.writeNarrow size v (fun s x => s.driverCsr part ((o - 0x10000) / 0x100) (o % 0x100 / 4) x)
  else if 0x20000 ≤ o ∧ o < 0x40000 then
    s.writeKtab part ((o - 0x20000) / 32) 2 (base + o / 32 * 32) offset size v
  else if 0x40000 ≤ o ∧ o < 0x60000 then
    s.writeSqd part ((o - 0x40000) / 0x800) (o % 0x800 / 32) 2 (base + o / 32 * 32) offset size v
  else s

/-- REGISTER_WRITE: an aligned access of 2, 4 or 8 bytes to BAR 0 or BAR 2; an offset that no register has is discarded. -/
def execRegisterWrite (bar offset size : Nat) (v : BitVec 64) (s : State) : Host.Outcome State Fault Refusal :=
  if s.driverReaches = false ∨ (size ≠ 2 ∧ size ≠ 4 ∧ size ≠ 8) ∨ offset % size ≠ 0 then .next s
  else if bar = 0 ∧ offset < 0x100000 then .next (s.writeDevice offset size v)
  else if bar = 2 ∧ offset < 6 * 0x1000000 then .next (s.writeControl (offset / 0x1000000) offset size v)
  else .next s

/-! ### Reading the windows (R393, R394) -/

/-- The 32-bit word of the device window at a multiple of 4. -/
def State.deviceWord (s : State) (o : Nat) : Word :=
  let half := fun (x : Dword) => if o % 8 = 0 then lowHalf x else highHalf x
  let peer := fun n => (((s.peers.find? (fun p => p.1 == n)).map Prod.snd).getD 0).toNat
  if o / 8 = 0 then half s.foffer
  else if o / 8 = 1 then half s.fenable
  else if o / 8 = 2 then half s.flatch
  else if o / 8 = 0x20 then half (BitVec.ofNat 64 ((List.range 6).foldl (fun a n => a + (s.part n).mask.toNat * 256 ^ n) 0))
  else if o = 0x108 then s.partst.setWidth 32
  else if 0x1000 ≤ o ∧ o < 0x1400 then ((s.mbox? ((o - 0x1000) / 4)).map Mailbox.cfg).getD 0
  else if 0x2000 ≤ o ∧ o < 0x2800 then BitVec.ofNat 32 (peer ((o - 0x2000) / 2) + peer ((o - 0x2000) / 2 + 1) * 65536)
  else if 0x10000 ≤ o ∧ o < 0x1AA00 then
    let w := ((s.acc.find? (fun a => a.key == (o - 0x10000) / 16)).map AccEntry.word).getD 0
    BitVec.ofNat 32 (field w.toNat (8 * (o % 16)) 32)
  else 0

/-- CFG of a kernel-table entry as it reads (R420, R423). -/
def State.ktabCfg (s : State) (k : KernelEntry) : Word :=
  BitVec.ofNat 32 ((if k.valid then 2 ^ 31 else 0) + (if s.kernelOld k then 2 ^ 30 else 0) + (if k.fail then 2 ^ 29 else 0) +
    k.slot * 2 ^ 16 + k.step.toNat * 2 ^ 8 + modeNat k.mode)

/-- The 32-bit word of a partition's control window at a multiple of 4. -/
def State.controlWord (s : State) (part o : Nat) : Word :=
  let half := fun (x : Dword) => if o % 8 = 0 then lowHalf x else highHalf x
  let P := s.part part
  if o = 0x8 then BitVec.ofNat 32 (P.lastOp.toNat * 256 + P.lastStat.toNat)
  else if o = 0x100 then P.smpcfg
  else if o / 8 = 0x21 then half P.smpbase
  else if o = 0x110 then P.smpsize
  else if o = 0x114 then P.shead
  else if o = 0x118 then P.stail
  else if o = 0x11C then P.sdrop
  else if o = 0x120 then P.sidle
  else if o / 8 = 0x40 then half P.dbg0
  else if o / 8 = 0x41 then half P.dbg1
  else if o = 0x218 then P.dbgst.setWidth 32
  else if 0x10000 ≤ o ∧ o < 0x14000 then ((s.ctx? part ((o - 0x10000) / 0x100)).map (fun c => c.csr (o % 0x100 / 4))).getD 0
  else if 0x20000 ≤ o ∧ o < 0x40000 then
    let k := s.kernelOr part ((o - 0x20000) / 32)
    let r := o % 32
    if r < 8 then half k.desc
    else if r < 16 then half k.code
    else if r < 24 then half k.itab
    else if r = 24 then s.ktabCfg k
    else k.gen.setWidth 32
  else if 0x40000 ≤ o ∧ o < 0x60000 then
    match s.ctx? part ((o - 0x40000) / 0x800) with
    | none => 0
    | some c =>
      let q := c.queueOr (o % 0x800 / 32)
      let r := o % 32
      if r < 8 then half q.base
      else if r = 8 then q.cfg
      else if r = 12 then BitVec.ofNat 32 ((if q.stop then 2 ^ 31 else 0) + q.cause.toNat)
      else if r = 16 then q.wptr
      else if r = 20 then q.rptr
      else 0
  else 0

end Sys2Proof.Machine
end

