-- ==== Sys2Proof/Machine/Hint.lean ====
section
/-! DEFINITION. The hint words of class 0xE (R47, R49), the words that no class assigns (R38) and the instruction fetch
(R49). -/

namespace Sys2Proof.Machine

/-- `HSCH` (R51): a word of its chain. -/
def execHsch (a : BitVec 4) (b c : BitVec 1) (d : BitVec 4) (e f : BitVec 1) (g : BitVec 4) (h j y : BitVec 1) (s : State) :
    Host.Outcome State Fault Refusal :=
  runHint (.hsch a b c d e f g h j y) s

/-- `HIMM` (R55). -/
def execHimm (i : BitVec 22) (s : State) : Host.Outcome State Fault Refusal := runHint (.himm i) s

/-- `HIMMX` (R55). -/
def execHimmx (x : BitVec 10) (s : State) : Host.Outcome State Fault Refusal := runHint (.himmx x) s

/-- `HMOD` (R57). -/
def execHmod (sc : BitVec 3) (o : BitVec 2) (r : BitVec 3) (t : BitVec 1) (w : BitVec 2) (a b : BitVec 3)
    (n m x y g : BitVec 1) (s : State) : Host.Outcome State Fault Refusal :=
  runHint (.hmod sc o r t w a b n m x y g) s

/-- `HPRED` (R59). -/
def execHpred (k : BitVec 3) (v : BitVec 1) (s : State) : Host.Outcome State Fault Refusal := runHint (.hpred k v) s

/-- `HPERM` (R60). -/
def execHperm (p : BitVec 3) (a : BitVec 5) (q : BitVec 3) (b : BitVec 5) (sp : BitVec 6) (s : State) :
    Host.Outcome State Fault Refusal :=
  runHint (.hperm p a q b sp) s

/-- UNASSIGNED_ENCODING: a word that is no instruction raises `UD` (R38). A hint word with a field that breaks its
layout stays in its chain, where the check of the unit finds it (R39, R49; log entry 12). -/
def execUnassignedEncoding (word : BitVec 32) (s : State) : Host.Outcome State Fault Refusal :=
  if word.extractLsb' 28 4 = 0xE#4 ∧ (word.extractLsb' 22 6).toNat ≤ 5 then runHint (.unassignedEncoding word) s
  else runInstr (.unassignedEncoding word) (fun _ => .error (wholeTrap .ud word.toNat 0)) s

/-- INSTRUCTION_FETCH: the fetch of the next word faults or waits, or finds the word (R49). -/
def execInstructionFetch (s : State) : Host.Outcome State Fault Refusal :=
  match s.issuer with
  | none => .refused .noIssuer
  | some I =>
    match I.fetch with
    | .ok _ => .next s
    | .error e => I.stopped .instructionFetch e

end Sys2Proof.Machine
end

