-- ==== Sys2Proof/Machine/Ready.lean ====
section
/-! DEFINITION. Which fragments are ready, whom a port chooses (R108 to R110), and the clock. -/

namespace Sys2Proof.Machine

/-! ### Ready fragments (R109) -/

/-- Whether what a warp has issued goes on: its group holds it on a core (R104). -/
def State.mayGoOn (s : State) (w : Warp) : Bool := (s.group? w.group).any (fun g => g.state.onCores)

/-- Whether a warp may issue: its group is resident, its context not faulted or being destroyed, and it is not to end (R365, R389,
R405). -/
def State.mayIssue (s : State) (w : Warp) : Bool :=
  s.mayGoOn w && !s.dying w && ((s.group? w.group).bind s.ctxOf).any (fun c => c.state == .active)

/-- The full queue that keeps an instruction from issuing: an engine's (R278) or the copy unit's (R305). -/
def Issue.queueFull (I : Issue) (i : Instr) : Option Wait :=
  let full := I.st.fullEngines ((I.group.membersAt (I.enginePositions i)).map Prod.fst)
  if full.isEmpty = false then some (.engine full)
  else if asksCopyUnit i && decide (32 ≤ (I.st.unitCopies I.warp.core).length) then some .copyUnit
  else none

/-- What keeps an instruction from issuing besides its fragment's stall (R109, R278, R305): a full queue, or registers not yet
written. One that fails a check is ready to take its fault. -/
def Issue.holdup (I : Issue) (i : Instr) : Option Wait :=
  match I.checked i with
  | .error _ => none
  | .ok I => if I.blocked i then some .score else I.queueFull i

/-- The instruction that a fragment's unit runs to: the words are read ahead, the hints among them joining the chain (R47). Otherwise
the wait for a word out of reach, or none when the unit takes its fault. -/
def Issue.ahead : Nat → Issue → Except (Option Wait) (Issue × Instr)
  | 0, _ => .error none
  | n + 1, I =>
    match I.fetch with
    | .error (.wait _ .score) => .error (some .score)
    | .error _ => .error none
    | .ok w =>
      match Sys2Proof.decode w with
      | .error _ => .error none
      | .ok i =>
        if isHint i = false then .ok (I, i)
        else if I.frag.chain.length = 4 then .error none
        else Issue.ahead n { I with frag := { I.frag with chain := I.frag.chain ++ [i], pc := I.frag.pc + 4 } }

/-- The issue of a fragment at the instruction that its unit runs to. -/
def State.aheadOf (s : State) (w : Warp) (f : Frag) : Except (Option Wait) (Issue × Instr) :=
  match State.issuer { s with cur := some { warp := w.uid, frag := f.id } } with
  | some I => Issue.ahead 5 I
  | none => .error none

/-- What keeps a fragment that does not wait from issuing. -/
def State.holdup (s : State) (w : Warp) (f : Frag) : Option Wait :=
  match s.aheadOf w f with
  | .ok (I, i) => I.holdup i
  | .error w => w

/-- A fragment in an `FMTSET` that has issued and is not complete (R81). -/
def Frag.inFmtset (f : Frag) : Bool := f.latch.any (fun l => l.instr matches .fmtset ..)

/-- A fragment in a `GLEAVE` that has issued: its warp issues nothing more (R374). -/
def Frag.inGleave (f : Frag) : Bool := f.latch.any (fun l => l.instr matches .gleave)

/-- A fragment that a port may serve: it has its record, does not wait, and its warp does not wait in `FMTSET` (R81) or leave. -/
def Warp.serves (w : Warp) (f : Frag) : Bool :=
  (w.role != .epilogue || f.record.isSome) && f.wait == .none && f.latch.isNone && !w.frags.any (fun x => x.inFmtset || x.inGleave)

/-- Whether a fragment is ready at its core's clock (R109). -/
def State.fragReady (s : State) (w : Warp) (f : Frag) : Bool :=
  w.serves f && decide (f.stallTill ≤ s.clock w.core) && (s.holdup w f).isNone

/-- The instruction of a fragment that issued and whose wait is over. -/
def State.goesOn (s : State) (r : FragRef) : Option Instr :=
  match s.warp? r.warp with
  | none => none
  | some w =>
    if s.mayGoOn w = false then none
    else match w.frag? r.frag with
      | none => none
      | some f => if f.wait = .none then f.latch.map Latch.instr else none

/-- The instructions that issued and whose waits are over, in the order of their issue (R122). -/
def State.goingOn (s : State) : List (Nat × FragRef) :=
  sortBy Prod.fst ((s.warps.filter s.mayGoOn).flatMap (fun w => w.frags.filterMap (fun f =>
    if f.wait = .none then f.latch.map (fun l => (l.stamp, { warp := w.uid, frag := f.id })) else none)))

/-- The one that goes on next. -/
def State.finishing (s : State) : Option FragRef := s.goingOn.head?.map Prod.snd

/-- Whether a copy that is still Issuing, its walks under way, holds the copy port of a core (R304; log entry 106). -/
def State.copyIssuing (s : State) (core : Nat) : Bool :=
  s.warps.any (fun w => w.core == core && w.role == .copy && s.mayGoOn w && w.frags.any (fun f => f.latch.any (fun l => asksCopyUnit l.instr)))

/-- Whether a port is free at its core's clock. -/
def State.portFree (s : State) (core port : Nat) : Bool :=
  s.portBusy.all (fun p => !(p.core == core && p.port == port) || decide (p.till ≤ s.clock core)) &&
    !(port == 4 && s.copyIssuing core)

/-- The rank of a ready fragment on its port (R110): a unit in progress first, then promoted fragments in order, then age
and lowest lane, yielded fragments last. Ascending lexicographic order. -/
def rankOf (w : Warp) (f : Frag) : List Nat :=
  if !f.chain.isEmpty then [0, 0, 0, 0]
  else match f.promoted with
    | some n => [1, n, 0, 0]
    | none => [if f.yielded then 3 else 2, w.age, lowestLane f.lanes, f.id]

def lexLess : List Nat → List Nat → Bool
  | a :: as, b :: bs => if a < b then true else if b < a then false else lexLess as bs
  | [], _ :: _ => true
  | _, [] => false

/-- The ready fragments of a port. -/
def State.readyOn (s : State) (core port : Nat) : List (Warp × Frag) :=
  (s.warps.filter (fun w => w.core == core && w.port == port && s.mayIssue w)).flatMap (fun w =>
    (w.frags.filter (s.fragReady w)).map (fun f => (w, f)))

/-- The fragment that a port chooses (R110). -/
def State.chosen (s : State) (core port : Nat) : Option FragRef :=
  if s.portFree core port = false then none
  else
    let best := ((s.readyOn core port).filter (fun x => decide (x.2.restTill ≤ s.clock core))).foldl (fun (b : Option (Warp × Frag)) c =>
      match b with
      | none => some c
      | some b => if lexLess (rankOf c.1 c.2) (rankOf b.1 b.2) then some c else some b) none
    best.map (fun c => { warp := c.1.uid, frag := c.2.id })

/-- The first port, by core and port number, with a fragment to issue. -/
def State.firstIssue (s : State) : Option FragRef :=
  ((s.warps.map (fun w => (w.core, w.port))).foldl (fun (acc : List (Nat × Nat)) p => if acc.contains p then acc else
      insertStable (fun q => q.1 * 8 + q.2) p acc) []).findSome? (fun p => s.chosen p.1 p.2)

/-- The ready fragments of a port that chooses one of them are passed over in this clock (R110, R450). -/
def State.passOver (s : State) (r : FragRef) : State :=
  match s.warp? r.warp with
  | none => s
  | some w =>
    let ready := (s.readyOn w.core w.port).map (fun x => ({ warp := x.1.uid, frag := x.2.id } : FragRef))
    { s with warps := s.warps.map (fun v =>
        { v with frags := v.frags.map (fun f =>
            let ref : FragRef := { warp := v.uid, frag := f.id }
            if ref != r && ready.contains ref then { f with passed := some (s.clock v.core) } else f) }) }

/-! ### The clock -/

/-- Whether a fragment is or was ready in the present clock: now, or when its port chose another (R110). -/
def State.readyIn (s : State) (w : Warp) (f : Frag) : Bool :=
  s.mayIssue w && (s.fragReady w f || (f.wait == .none && f.passed == some (s.clock w.core)))

/-- One nominal core clock: each quire's clock advances by its step (R459), and fragments that were ready and not chosen count
towards promotion in clocks of their core (R110). The time at a clock step saturates (R460). -/
def State.tick (s : State) : State :=
  let before := s
  let s := { s with
    ticks := s.ticks + 1
    quireClk := Vector.ofFn (fun q => s.quireClk.getD q.val 0 + s.clkStep.getD q.val 16)
    stepTime := Vector.ofFn (fun q =>
      let n := s.clkStep.getD q.val 16 - 8
      let v := s.stepTime.getD q.val (Vector.replicate 9 0)
      v.setIfInBounds n (min 0xFFFFFFFF (v.getD n 0 + 1))) }
  { s with warps := s.warps.map (fun w =>
      let n := s.clock w.core - before.clock w.core
      { w with frags := w.frags.map (fun f =>
          if n = 0 then f else { f with readyFor := if before.readyIn w f then f.readyFor + n else 0, passed := none }) }) }

end Sys2Proof.Machine
end

