-- ==== Sys2Proof/Machine/Observe.lean ====
section
/-! DEFINITION. The stall-reason sampler, sensors and clocks, storage errors, firmware and reset (R25 to R31, R448 to R460). -/

namespace Sys2Proof.Machine

/-! ### What a sample says (R449 to R451) -/

/-- A sampled fragment: its place in the cycle and the fields of its record but for the time. -/
structure Sample where
  place  : Nat
  pc     : Dword
  who    : Word
  mark   : BitVec 16
  reason : Nat
  part   : Nat
  slot   : Nat
  kid    : Nat
  deriving DecidableEq, Repr

/-- The waits of code 7. -/
def Wait.bounded : Wait → Bool
  | .sleep _ => true
  | .tile .. => true
  | .copies => true
  | .lock _ => true
  | .line _ => true
  | .promotion _ => true
  | .snoop _ => true
  | .format .. => true
  | .access => true
  | .leaving => true
  | .acks .. => true
  | .stores .. => true
  | .walk _ => true
  | .crossing .. => true
  | .remote .. => true
  | _ => false

/-- Whether the instruction that a fragment goes to finds an engine queue or its copy unit full. -/
def State.fullFor (s : State) (w : Warp) (f : Frag) : Bool :=
  match s.aheadOf w f with
  | .ok (I, i) => (I.queueFull i).isSome
  | .error _ => false

/-- Whether the words that a fragment goes to are out of reach. -/
def State.fetchMissing (s : State) (w : Warp) (f : Frag) : Bool :=
  match s.aheadOf w f with
  | .error (some _) => true
  | _ => false

/-- The reason code of a fragment that did not issue in this clock (R450). A fragment that is ready, and that its port neither passes
over for another nor is held from, has code 1 (log entry 109). -/
def State.reasonOf (s : State) (w : Warp) (f : Frag) : Nat :=
  let now := s.clock w.core
  if f.passed = some now then 1
  else if s.mayIssue w && s.fragReady w f then
    match s.portBusy.find? (fun p => p.core == w.core && p.port == w.port) with
    | some p => if p.clock < now ∧ now < p.till then 2 else 1
    | none => 1
  else match f.wait with
    | .parked _ => 10
    | .held => 9
    | .behind => 9
    | .left _ => 8
    | wait =>
      if wait.blocking then 8
      else if w.started = false then 11
      else if wait.bounded || f.latch.isSome || w.frags.any (fun x => x.inFmtset || x.inGleave) then 7
      else if s.fullFor w f then 6
      else if s.fetchMissing w f then 5
      else if now < f.stallTill then 3
      else 4

/-- The mark that a sample of a warp carries: a `SAMPM` that issues in a clock marks from the next clock on (R452). -/
def State.markOf (s : State) (w : Warp) : BitVec 16 := if w.markAt = some (s.clock w.core) then w.markOld else w.mark

/-- The live fragments of a core as samples, in the order of the cycle; one that issued in this clock stands as it issued. -/
def State.samplesOf (s : State) (core : Nat) : List Sample :=
  let issued := (s.portBusy.filter (fun p => p.core == core && p.clock == s.clock core)).map (fun (p : PortUse) =>
    ({ place := p.place, pc := p.pc, who := p.who, mark := p.mark, reason := 0, part := p.part, slot := p.slot, kid := p.kid } : Sample))
  let live := (s.warps.filter (fun w => w.core == core)).flatMap (fun w =>
    match s.group? w.group with
    | none => []
    | some g =>
      let kid := ((s.grid? g.grid).map Grid.kid).getD 0
      (w.frags.filter (fun f => w.role != .epilogue || f.record.isSome)).map (fun f =>
        ({ place := sampleCycle w f, pc := f.head, who := sampleWho w f, mark := s.markOf w, reason := s.reasonOf w f, part := g.part,
           slot := g.ctx, kid := kid } : Sample)))
  sortBy Sample.place (issued ++ live.filter (fun x => !issued.any (fun y => y.place == x.place)))

/-- The 32 bytes of a sample record. -/
def Sample.bytes (x : Sample) (time : Nat) (ctxid : Word) : List Byte :=
  bytesLE 8 x.pc.toNat ++ bytesLE 8 time ++ bytesLE 4 x.who.toNat ++ bytesLE 4 (x.mark.toNat * 65536 + x.reason) ++
    bytesLE 4 ctxid.toNat ++ bytesLE 4 x.kid

/-! ### Sample clocks (R449, R453) -/

/-- The partition that holds the quire of a core. -/
def State.partOfCore (s : State) (core : Nat) : Option Nat :=
  (List.range 6).find? (fun p => (s.part p).mask.getLsbD (quireOf core))

/-- The cycle place and the clock of a core's last sample. -/
def State.lastSample (s : State) (core : Nat) : Option (Nat × Nat) :=
  (s.sampled.find? (fun x => x.1 == core)).map Prod.snd

/-- Whether a configuration samples a core at its clock, and it has not been sampled there. -/
def State.sampleDue (s : State) (core : Nat) (cfg : Word) : Bool :=
  cfg.getLsbD 31 && s.clock core % (field cfg.toNat 0 20 + 1) == 0 && ((s.lastSample core).map Prod.snd != some (s.clock core))

/-- The byte of a ring at which its next record lies, when `n` more come before it. -/
def Part.ringByte (P : Part) (n : Nat) : Nat := P.smpbase.toNat + 32 * ((P.shead + BitVec.ofNat 32 n).toNat % P.smpsize.toNat)

/-- The oldest record that waits goes into its ring, once the ring's line is within reach of its core (R436, R440, R442; log entry 84):
a class 1 write and its acknowledgement. -/
def State.writeSample (s : State) (part : Nat) : State :=
  let P := s.part part
  match P.samples with
  | [] => s
  | x :: rest =>
    let at_ := P.ringByte 0
    let from_ := { Sender.ofDie 0 6 0 with core := x.1 }
    if deviceBytes < at_ + 32 ∨ s.snooped at_ = true ∨ s.exchanges (dieOf x.1) 1 at_ = false then s
    else
      let s := s.exchange from_ 1 at_
      { s.setPart part { P with samples := rest, shead := P.shead + 1 } with mem := memWrites s.mem at_ x.2 }

def State.writeSamples (s : State) (part : Nat) : State := (s.part part).samples.foldl (fun s _ => s.writeSample part) s

/-- Every partition's records that wait, as far as they go. -/
def State.settleSamples (s : State) : State := (List.range 6).foldl State.writeSamples s

/-- The sample at a clock: the next live fragment of the cycle is written, in order behind those that wait, or dropped; no fragment
counts as idle. -/
def State.takeSample (s : State) (part core : Nat) : Host.Outcome State Fault Refusal :=
  let P := s.part part
  let xs := s.samplesOf core
  let last := ((s.lastSample core).map Prod.fst).getD 1024
  let note := fun (s : State) (pos : Nat) => { s with sampled := insertBy Prod.fst (core, pos, s.clock core) s.sampled }
  match (xs.find? (fun x => last < x.place)).or xs.head? with
  | none => .next (note (s.setPart part { P with sidle := satInc P.sidle }) last)
  | some x =>
    let s := note s x.place
    let n := P.samples.length
    if P.shead + BitVec.ofNat 32 n - P.stail = P.smpsize then .next (s.setPart part { P with sdrop := satInc P.sdrop })
    else if deviceBytes < P.ringByte n + 32 then .fault .noSuchPhysicalAddress
    else
      let ctxid := ((s.ctx? x.part x.slot).map Ctx.ctxid).getD 0
      .next ((s.setPart part { P with samples := P.samples ++ [(core, x.bytes (s.clock core) ctxid)] }).writeSamples part)

/-- SAMPLE_TICK: a configuration written takes effect at a sample clock, which it may leave without a sample. -/
def execSampleTick (core : Nat) (s : State) : Host.Outcome State Fault Refusal :=
  match s.partOfCore core with
  | none => .next s
  | some part =>
    let P := s.part part
    if s.sampleDue core P.smpcfg = false then .next s
    else
      let P' : Part := match P.smpnext with
        | some v => { P with smpcfg := v, smpnext := none }
        | none => P
      let s := s.setPart part P'
      if s.sampleDue core P'.smpcfg then s.takeSample part core else .next s

/-! ### Sensors and clocks (R459) -/

/-- A quire's clock one step lower, not below 8/16. -/
def State.lowerClock (s : State) (q : Nat) : State :=
  { s with
    clkStep := s.clkStep.setIfInBounds q (max 8 (s.clkStep.getD q 16 - 1))
    calm := s.calm.setIfInBounds q s.ticks }

/-- Every context of a partition ends with `MCHK`. -/
def State.machineCheckWhere (s : State) (p : Ctx → Bool) (addr : Nat) : State :=
  (s.ctxs.filter p).foldl (fun s c => s.machineCheck c.part c.slot addr) s

/-- SENSOR_READ: the quire's weight, its clock under the limits, every clock under the power cap, and the critical
temperature. The firmware reads them: a device at step 2 of R454 runs none. -/
def execSensorRead (r : SensorReading) (s : State) : Host.Outcome State Fault Refusal :=
  if 6 ≤ r.quire ∨ s.firmware.verified = false then .next s
  else
    let burning := r.critical && s.clkStep.getD r.quire 16 == 8
    let s := { s with weights := s.weights.setIfInBounds r.quire r.weight, readings := s.readings.setIfInBounds r.quire r }
    let s :=
      if r.overCap then (List.range 6).foldl State.lowerClock s
      else if r.overTemp || r.overDroop then s.lowerClock r.quire
      else s
    if burning then
      let s := { s with heldOut := BitVec.ofNat 6 (2 ^ r.quire) ||| s.heldOut }
      .next (match s.partOfCore (8 * r.quire) with
        | some p => s.machineCheckWhere (fun c => c.part == p) (2 ^ 64 - 1)
        | none => s)
    else .next s

/-- Whether a quire's clock may rise a step: its last reading, and its readings for 1 ms, are below their limits. -/
def State.mayRaise (s : State) (q : Nat) : Bool :=
  decide (q < 6) && decide (s.clkStep.getD q 16 < 16) && decide (s.calm.getD q 0 + 2700000 ≤ s.ticks) &&
    ((s.readings[q]?).elim true (fun r => !(r.overTemp || r.overDroop || r.overCap)))

/-- CLOCK_RAISE. -/
def execClockRaise (q : Nat) (s : State) : Host.Outcome State Fault Refusal :=
  .next (if s.mayRaise q then
    { s with clkStep := s.clkStep.setIfInBounds q (s.clkStep.getD q 16 + 1), calm := s.calm.setIfInBounds q s.ticks }
  else s)

/-! ### Storage errors (R25 to R31) -/

/-- An error counter of a die and structure class (R25, R460). -/
def State.countError (s : State) (die cls : Nat) (kind : ErrKind) : State :=
  if s.errors.any (fun e => e.die == die && e.cls == cls && e.kind == kind) then
    { s with errors := s.errors.map (fun (e : ErrCount) =>
        if e.die = die ∧ e.cls = cls ∧ e.kind = kind then { e with count := satInc e.count } else e) }
  else { s with errors := s.errors ++ [{ die := die, cls := cls, kind := kind, count := 1 }] }

/-- The driver allocates physical frames, by their first and last byte, in a context, and sets the module's power cap (R28, R459). -/
def State.allocate (s : State) (first last part slot : Nat) : State := { s with frames := (first, last, part, slot) :: s.frames }
def State.setPowerCap (s : State) (w : Dword) : State := { s with powerCap := w }

/-- The context in which the driver last allocated the frame of a physical address (R28). -/
def State.frameOwner (s : State) (pa : Nat) : Option (Nat × Nat) :=
  (s.frames.find? (fun f => decide (f.1 ≤ pa) && decide (pa ≤ f.2.1))).map (fun f => f.2.2)

/-- The fragment that consumed bad data, if any, at the recipe slot whose replay read it (R144). -/
def State.checkConsumer (s : State) (consumer : Option EccConsumer) (addr : Nat) : State :=
  consumer.elim s (fun r => s.machineCheckAt { warp := r.warp, frag := r.frag } r.slot addr)

/-- The line of a physical address, as a record of R28 names it. -/
def lineAddr (pa : Nat) : Nat := pa / 128 * 128

/-- A copy that consumed bad data does not complete, and its messages perform nowhere: no byte or credit comes of it (R28, R326). -/
def State.stopCopy (s : State) (uid : Nat) : State :=
  { s with
    copies := s.copies.filter (fun c => c.uid != uid)
    flows := s.flows.map (fun (f : Flow) => { f with held := f.held.filter (fun m => m.performed || !m.ofCopy uid) }) }

/-- Whether a copy of a context is under way with data of a device line, which it reads, or modifies at its home. -/
def Copy.consumes (c : Copy) (part slot line : Nat) : Bool :=
  c.part == part && c.ctx == slot && c.running && !c.sent && c.kind != .cpyp && (c.load || c.kind == .cpyr) &&
    c.sides.any (fun x => x.rows.any (fun r => r.any (fun e => e.any (fun k => decide (k.2 < spaceSize) && lineOf k.2 == line))))

/-- The copies of a context that consume a line stop. -/
def State.stopConsumers (s : State) (line : Nat) (c : Nat × Nat) : State :=
  ((s.copies.filter (fun x => x.consumes c.1 c.2 line)).map Copy.uid).foldl State.stopCopy s

/-- The owner of the data at a physical address ends, and so does the context whose access met the error: a fragment's, or its
copies' when no fragment consumed the data (R28). -/
def State.checkMemory (s : State) (pa : Nat) (accessor : Option (Nat × Nat)) (consumer : Option EccConsumer) : State :=
  let fail := fun (s : State) (c : Nat × Nat) => s.machineCheck c.1 c.2 (lineAddr pa)
  let s := s.checkConsumer consumer (lineAddr pa)
  let s := if consumer.isNone then accessor.elim s (s.stopConsumers (lineOf pa)) else s
  let s := accessor.elim s (fail s)
  (s.frameOwner pa).elim s (fail s)

/-- The context of a copy in transit ends, with the copy (R28, R326). -/
def State.checkCopy (s : State) (uid pa : Nat) : State :=
  match s.copy? uid with
  | none => s
  | some c => (s.stopCopy uid).machineCheck c.part c.ctx (lineAddr pa)

/-- The context of an engine operation in transit ends, with the operation (R28). -/
def State.checkTileOp (s : State) (uid pa : Nat) : State :=
  match s.engines.find? (fun o => o.uid == uid) with
  | none => s
  | some o =>
    let s := { s with engines := s.engines.filter (fun o => o.uid != uid) }
    match s.group? o.group with
    | none => s
    | some g => s.machineCheck g.part g.ctx (lineAddr pa)

/-- The context that sent a mailbox message which no receive has taken ends, and the message is not delivered (R28, R348). -/
def State.checkMessage (s : State) (mbox place pa : Nat) : State :=
  match s.mbox? mbox with
  | none => s
  | some b =>
    match b.msgs[place]? with
    | none => s
    | some m =>
      (s.setMbox { b with msgs := b.msgs.eraseIdx place }).machineCheck m.part m.ctx (lineAddr pa)

/-- PATROL_SCRUB: it begins at step 4 of R454, which a device without firmware does not reach. -/
def execPatrolScrub (die : Nat) (found : ScrubFinding) (s : State) : Host.Outcome State Fault Refusal :=
  if s.firmware.verified = false then .next s
  else match found with
  | .nothing => .next s
  | .correctable cls => .next (s.countError die cls .scrubbed)
  | .uncorrectable cls pa => .next ((s.countError die cls .uncorrectable).checkMemory pa none none)

/-- ECC_CORRECTABLE. -/
def execEccCorrectable (die cls : Nat) (s : State) : Host.Outcome State Fault Refusal := .next (s.countError die cls .corrected)

/-- ECC_UNCORRECTABLE: data held elsewhere is discarded and fetched again (R27); other data ends its owner, and what consumed it does
not complete (R28); state that belongs to no context ends every context, and no launch follows until reset (R30). -/
def execEccUncorrectable (die cls : Nat) (site : EccSite) (s : State) : Host.Outcome State Fault Refusal :=
  let bad := s.countError die cls .uncorrectable
  match site with
  | .cleanCopy entry =>
    let s := s.countError die cls .corrected
    .next (entry.elim s (fun e => s.uncache e.1 e.2.1 e.2.2))
  | .memory pa accessor consumer => .next (bad.checkMemory pa accessor consumer)
  | .vat gid consumer =>
    let s := bad.checkConsumer consumer 0
    .next (match s.group? gid with
      | some g => s.machineCheck g.part g.ctx 0
      | none => s)
  | .copy uid pa => .next (bad.checkCopy uid pa)
  | .tileOp uid pa => .next (bad.checkTileOp uid pa)
  | .message mbox place pa => .next (bad.checkMessage mbox place pa)
  | .unowned => .next bad
  | .global => .next ({ bad with barred := true }.machineCheckWhere (fun _ => true) 0)

/-! ### Firmware (R457, R458) -/

/-- The image in a slot; the spec states nothing of the one that the device was made with (log entries 8 and 10). -/
def imageOf (i : Option FirmwareImage) : FirmwareImage :=
  i.getD { verifies := true, security := 0, digest := Config.factoryDigest, version := Config.firmwareVersion }

/-- Whether the boot ROM runs an image under a fused security version. -/
def bootable (fused : Nat) (i : Option FirmwareImage) : Bool :=
  match i with
  | none => fused == 0
  | some x => x.verifies && decide (fused ≤ x.security)

/-- FIRMWARE_STAGE: the inactive slot takes the image; nothing that runs changes. -/
def execFirmwareStage (image : FirmwareImage) (s : State) : Host.Outcome State Fault Refusal :=
  .next { s with firmware := { s.firmware with other := some (some image), staged := true } }

/-- SECURITY_VERSION_RAISE: after a successful start, never below the running image's version. -/
def execSecurityVersionRaise (v : Nat) (s : State) : Host.Outcome State Fault Refusal :=
  let f := s.firmware
  .next (if f.verified && decide ((imageOf f.running).security ≤ v) && decide (f.security < v) then
    { s with firmware := { f with security := v } }
  else s)

/-- The measurement register: zero, extended with each digest in turn. -/
def Firmware.measurement (f : Firmware) : BitVec 384 :=
  f.measured.foldl (fun m i => Config.extendMeasurement m (imageOf i).digest) 0

/-- GET_MEASUREMENTS: the running firmware answers over link 13; a device at step 2 of R454 runs none. -/
def execGetMeasurements (s : State) : Host.Outcome State Fault Refusal :=
  .next (if s.driverReaches then { s with reported := s.reported ++ [s.firmware.measurement] } else s)

/-- The firmware as the boot ROM leaves it: a newly staged image first, else the one that ran, and the other slot when the first
fails. -/
def Firmware.boot (f : Firmware) : Firmware :=
  let stay : Firmware := { f with staged := false, measured := [f.running], verified := true, clean := true }
  let swap := fun (o : Option FirmwareImage) =>
    { f with slot := f.slot + 1, running := o, other := some f.running, staged := false, measured := [o], verified := true, clean := true }
  let dead : Firmware := { f with staged := false, measured := [], verified := false, clean := false }
  match f.other with
  | none => if bootable f.security f.running then stay else dead
  | some o =>
    if f.staged then
      if bootable f.security o then swap o else if bootable f.security f.running then { stay with clean := false } else dead
    else if bootable f.security f.running then stay
    else if bootable f.security o then { swap o with clean := false } else dead

/-! ### Reset (R454) -/

/-- RESET: the state after a start, but for what lies outside the device and what the firmware's slots and fuses keep. A device
that verifies no image stays at step 2: link 13 does not train and it posts no offer. -/
def execReset (s : State) : Host.Outcome State Fault Refusal :=
  let f := s.firmware.boot
  .next { State.reset with
    agenda := s.agenda
    draws := s.draws
    mem := s.mem.filter (fun c => decide (spaceSize ≤ c.1))
    foffer := if f.verified then State.reset.foffer else 0
    links := if f.verified then State.reset.links else State.reset.links.setIfInBounds 13 (Link.reset 1)
    firmware := f
    msix := s.msix
    reported := s.reported }

end Sys2Proof.Machine
end

