-- ==== Sys2Proof/Machine/Scalar.lean ====
section
/-! DEFINITION. Class 0x0: scalar arithmetic (R151 to R155). -/

namespace Sys2Proof.Machine

/-! ### Operands and results -/

/-- A scalar as the instruction reads it. -/
def Issue.sv {w : Nat} (I : Issue) (n : BitVec w) : Word := I.view.getS n.toNat

/-- A pair of scalars as the instruction reads it. -/
def Issue.pv {w : Nat} (I : Issue) (n : BitVec w) : Dword := I.view.getPair n.toNat

/-- Operand b: the scalar, or V when I = 1 (R56, R151). -/
def Issue.sb (I : Issue) (b : BitVec 6) (i : BitVec 1) : Word := if i = 0#1 then I.sv b else I.h.imm.getD 0

/-- Operand b of a 64-bit addition: the pair, or V sign-extended (R155). -/
def Issue.pb (I : Issue) (b : BitVec 6) (i : BitVec 1) : Dword :=
  if i = 0#1 then I.pv b else (I.h.imm.getD 0).signExtend 64

/-- A scalar result. -/
def Issue.doneS {w : Nat} (I : Issue) (d : BitVec w) (x : Word) : Done := { st := I.put (I.warp.setS d.toNat x) }

/-- A pair result. -/
def Issue.doneP {w : Nat} (I : Issue) (d : BitVec w) (x : Dword) : Done := { st := I.put (I.warp.setPair d.toNat x) }

/-- The body of a class 0x0 word of format S: one result from a, b and the old destination. -/
def scalarBody (d a b : BitVec 6) (i : BitVec 1) (f : Word → Word → Word → Word) : Body :=
  fun I => .ok (I.doneS d (f (I.sv a) (I.sb b i) (I.sv d)))

/-- The body of a unary class 0x0 word. -/
def scalarUnary (d a : BitVec 6) (f : Word → Word → Word → Word) : Body := fun I => .ok (I.doneS d (f (I.sv a) 0 0))

/-! ### The instructions of R152 -/

def execSadd (d a b : BitVec 6) (i : BitVec 1) (s : State) : Host.Outcome State Fault Refusal :=
  runInstr (.sadd d a b i) (scalarBody d a b i saddV) s

/-- `SADDC`: the sum with the carry, and the carry out. -/
def execSaddc (d a b : BitVec 6) (i : BitVec 1) (c : BitVec 3) (s : State) : Host.Outcome State Fault Refusal :=
  runInstr (.saddc d a b i c) (fun I =>
    let r := saddcV (I.sv a) (I.sb b i) (I.view.getC c.toNat)
    .ok { st := I.put ((I.warp.setS d.toNat r.1).setC c.toNat r.2) }) s

def execSsub (d a b : BitVec 6) (i : BitVec 1) (s : State) : Host.Outcome State Fault Refusal :=
  runInstr (.ssub d a b i) (scalarBody d a b i ssubV) s

/-- `SSUBB`: the difference with the borrow, and the borrow out. -/
def execSsubb (d a b : BitVec 6) (i : BitVec 1) (c : BitVec 3) (s : State) : Host.Outcome State Fault Refusal :=
  runInstr (.ssubb d a b i c) (fun I =>
    let r := ssubbV (I.sv a) (I.sb b i) (I.view.getC c.toNat)
    .ok { st := I.put ((I.warp.setS d.toNat r.1).setC c.toNat r.2) }) s

def execSmul (d a b : BitVec 6) (i : BitVec 1) (s : State) : Host.Outcome State Fault Refusal :=
  runInstr (.smul d a b i) (scalarBody d a b i smulV) s

def execSmulhi (d a b : BitVec 6) (i : BitVec 1) (s : State) : Host.Outcome State Fault Refusal :=
  runInstr (.smulhi d a b i) (scalarBody d a b i smulhiV) s

def execSmulhu (d a b : BitVec 6) (i : BitVec 1) (s : State) : Host.Outcome State Fault Refusal :=
  runInstr (.smulhu d a b i) (scalarBody d a b i smulhuV) s

def execSmad (d a b : BitVec 6) (i : BitVec 1) (s : State) : Host.Outcome State Fault Refusal :=
  runInstr (.smad d a b i) (scalarBody d a b i smadV) s

def execSdiv (d a b : BitVec 6) (i : BitVec 1) (s : State) : Host.Outcome State Fault Refusal :=
  runInstr (.sdiv d a b i) (scalarBody d a b i sdivV) s

def execSdivu (d a b : BitVec 6) (i : BitVec 1) (s : State) : Host.Outcome State Fault Refusal :=
  runInstr (.sdivu d a b i) (scalarBody d a b i sdivuV) s

def execSrem (d a b : BitVec 6) (i : BitVec 1) (s : State) : Host.Outcome State Fault Refusal :=
  runInstr (.srem d a b i) (scalarBody d a b i sremV) s

def execSremu (d a b : BitVec 6) (i : BitVec 1) (s : State) : Host.Outcome State Fault Refusal :=
  runInstr (.sremu d a b i) (scalarBody d a b i sremuV) s

def execSand (d a b : BitVec 6) (i : BitVec 1) (s : State) : Host.Outcome State Fault Refusal :=
  runInstr (.sand d a b i) (scalarBody d a b i sandV) s

def execSor (d a b : BitVec 6) (i : BitVec 1) (s : State) : Host.Outcome State Fault Refusal :=
  runInstr (.sor d a b i) (scalarBody d a b i sorV) s

def execSxor (d a b : BitVec 6) (i : BitVec 1) (s : State) : Host.Outcome State Fault Refusal :=
  runInstr (.sxor d a b i) (scalarBody d a b i sxorV) s

def execSandn (d a b : BitVec 6) (i : BitVec 1) (s : State) : Host.Outcome State Fault Refusal :=
  runInstr (.sandn d a b i) (scalarBody d a b i sandnV) s

def execSshl (d a b : BitVec 6) (i : BitVec 1) (s : State) : Host.Outcome State Fault Refusal :=
  runInstr (.sshl d a b i) (scalarBody d a b i sshlV) s

def execSshr (d a b : BitVec 6) (i : BitVec 1) (s : State) : Host.Outcome State Fault Refusal :=
  runInstr (.sshr d a b i) (scalarBody d a b i sshrV) s

def execSsra (d a b : BitVec 6) (i : BitVec 1) (s : State) : Host.Outcome State Fault Refusal :=
  runInstr (.ssra d a b i) (scalarBody d a b i ssraV) s

def execSrol (d a b : BitVec 6) (i : BitVec 1) (s : State) : Host.Outcome State Fault Refusal :=
  runInstr (.srol d a b i) (scalarBody d a b i srolV) s

def execSmin (d a b : BitVec 6) (i : BitVec 1) (s : State) : Host.Outcome State Fault Refusal :=
  runInstr (.smin d a b i) (scalarBody d a b i sminV) s

def execSmax (d a b : BitVec 6) (i : BitVec 1) (s : State) : Host.Outcome State Fault Refusal :=
  runInstr (.smax d a b i) (scalarBody d a b i smaxV) s

def execSminu (d a b : BitVec 6) (i : BitVec 1) (s : State) : Host.Outcome State Fault Refusal :=
  runInstr (.sminu d a b i) (scalarBody d a b i sminuV) s

def execSmaxu (d a b : BitVec 6) (i : BitVec 1) (s : State) : Host.Outcome State Fault Refusal :=
  runInstr (.smaxu d a b i) (scalarBody d a b i smaxuV) s

/-- `SCMP`: a condition bit by the integer column of R44. -/
def execScmp (k : BitVec 3) (c : BitVec 4) (a b : BitVec 6) (i : BitVec 1) (s : State) : Host.Outcome State Fault Refusal :=
  runInstr (.scmp k c a b i) (fun I => .ok { st := I.put (I.warp.setC k.toNat (intCond c.toNat (I.sv a) (I.sb b i))) }) s

/-- `SSEL`: a or b by a condition bit. -/
def execSsel (d a b : BitVec 6) (i : BitVec 1) (c : BitVec 3) (s : State) : Host.Outcome State Fault Refusal :=
  runInstr (.ssel d a b i c) (fun I => .ok (I.doneS d (if I.view.getC c.toNat then I.sv a else I.sb b i))) s

def execSmov (d a : BitVec 6) (s : State) : Host.Outcome State Fault Refusal :=
  runInstr (.smov d a) (scalarUnary d a smovV) s

/-- `SMOVI`: the immediate sign-extended, or V. -/
def execSmovi (d : BitVec 6) (i : BitVec 16) (s : State) : Host.Outcome State Fault Refusal :=
  runInstr (.smovi d i) (fun I => .ok (I.doneS d (I.h.imm.getD (i.signExtend 32)))) s

/-- `SMOVHI`: the high half replaced by the immediate, or by the low half of V. -/
def execSmovhi (d : BitVec 6) (i : BitVec 16) (s : State) : Host.Outcome State Fault Refusal :=
  runInstr (.smovhi d i) (fun I => .ok (I.doneS d (smovhiV (I.h.imm.getD (i.setWidth 32)) 0 (I.sv d)))) s

def execSclz (d a : BitVec 6) (s : State) : Host.Outcome State Fault Refusal :=
  runInstr (.sclz d a) (scalarUnary d a sclzV) s

def execSpopc (d a : BitVec 6) (s : State) : Host.Outcome State Fault Refusal :=
  runInstr (.spopc d a) (scalarUnary d a spopcV) s

def execSbfe (d a b : BitVec 6) (i : BitVec 1) (s : State) : Host.Outcome State Fault Refusal :=
  runInstr (.sbfe d a b i) (scalarBody d a b i sbfeV) s

def execSbfi (d a b : BitVec 6) (i : BitVec 1) (s : State) : Host.Outcome State Fault Refusal :=
  runInstr (.sbfi d a b i) (scalarBody d a b i sbfiV) s

/-! ### Pairs (R155) -/

def execSadd64 (d a b : BitVec 6) (i : BitVec 1) (s : State) : Host.Outcome State Fault Refusal :=
  runInstr (.sadd64 d a b i) (fun I => .ok (I.doneP d (sadd64V (I.pv a) (I.pb b i)))) s

def execSsub64 (d a b : BitVec 6) (i : BitVec 1) (s : State) : Host.Outcome State Fault Refusal :=
  runInstr (.ssub64 d a b i) (fun I => .ok (I.doneP d (ssub64V (I.pv a) (I.pb b i)))) s

/-- `SSHL64`: the count is a single scalar or V. -/
def execSshl64 (d a b : BitVec 6) (i : BitVec 1) (s : State) : Host.Outcome State Fault Refusal :=
  runInstr (.sshl64 d a b i) (fun I => .ok (I.doneP d (sshl64V (I.pv a) ((I.sb b i).setWidth 64)))) s

def execSshr64 (d a b : BitVec 6) (i : BitVec 1) (s : State) : Host.Outcome State Fault Refusal :=
  runInstr (.sshr64 d a b i) (fun I => .ok (I.doneP d (sshr64V (I.pv a) ((I.sb b i).setWidth 64)))) s

end Sys2Proof.Machine
end

