-- ==== Sys2Proof/Machine/System.lean ====
section
/-! DEFINITION. Class 0xD, the system instructions (R406 to R412, R456). -/

namespace Sys2Proof.Machine

/-- `TRAP` (R407). -/
def execTrap (n : BitVec 8) (s : State) : Host.Outcome State Fault Refusal :=
  runInstr (.trap n) (fun _ => .error (wholeTrap .trap n.toNat 0)) s

/-- `ASSERT` (R407). -/
def execAssert (a : BitVec 6) (n : BitVec 8) (s : State) : Host.Outcome State Fault Refusal :=
  runInstr (.assert a n) (fun I =>
    if I.view.getS a.toNat = 0 then .error (wholeTrap .assert n.toNat 0) else .ok { st := I.st }) s

/-- `BKPT` (R407): a fault while CTXCFG.BKEN is set, and nothing otherwise. -/
def execBkpt (n : BitVec 8) (s : State) : Host.Outcome State Fault Refusal :=
  runInstr (.bkpt n) (fun I =>
    if I.ctx.cfg.getLsbD 1 then .error (wholeTrap .bkpt n.toNat 0) else .ok { st := I.st }) s

/-- `CLKR` (R408). -/
def execClkr (d : BitVec 6) (e : BitVec 1) (s : State) : Host.Outcome State Fault Refusal :=
  runInstr (.clkr d e) (fun I =>
    let x := if e = 0#1 then I.st.nanos else I.now
    .ok { st := I.put (I.warp.setPair d.toNat (BitVec.ofNat 64 x)) }) s

/-- The words of `FEATR` (R456): the latched bits, stepping 1 of ISA 3.0, and the running firmware's version; of the image that the
device was made with, the spec does not state it (log entry 8). -/
def State.featureWord (s : State) (n : Nat) : Word :=
  match n with
  | 0 => lowHalf s.flatch
  | 1 => highHalf s.flatch
  | 2 => 0x00010300
  | _ => (s.firmware.running.map FirmwareImage.version).getD Config.firmwareVersion

/-- `FEATR` (R409). -/
def execFeatr (d : BitVec 6) (n : BitVec 2) (s : State) : Host.Outcome State Fault Refusal :=
  runInstr (.featr d n) (fun I => .ok { st := I.put (I.warp.setS d.toNat (I.st.featureWord n.toNat)) }) s

/-- `SLEEP` (R410). -/
def execSleep (n : BitVec 16) (s : State) : Host.Outcome State Fault Refusal :=
  runInstr (.sleep n) (fun I =>
    if n = 0#16 then .ok { st := I.st } else .error (.wait I.st (.sleep (I.now + n.toNat)))) s

/-- SLEEP_EXPIRE (R410). -/
def execSleepExpire (warp frag : Nat) (s : State) : Host.Outcome State Fault Refusal :=
  match s.warp? warp with
  | none => .next s
  | some w =>
    match (w.frag? frag).map Frag.wait with
    | some (.sleep till) => if till ≤ s.clock w.core then .next (s.completeFrag { warp := warp, frag := frag } id) else .next s
    | _ => .next s

/-- `CSRD` (R411). -/
def execCsrd (d : BitVec 6) (r : BitVec 8) (s : State) : Host.Outcome State Fault Refusal :=
  runInstr (.csrd d r) (fun I => .ok { st := I.put (I.warp.setS d.toNat (I.ctx.csr r.toNat)) }) s

/-- `CSWR` (R411): a release at system scope first, for FANS and PGDB. -/
def execCswr (a : BitVec 6) (r : BitVec 8) (s : State) : Host.Outcome State Fault Refusal :=
  runInstr (.cswr a r) (fun I =>
    match (if r = 0x17#8 ∨ r = 0x1D#8 then I.release I.st 4 else .ok I.st) with
    | .error e => .error e
    | .ok s => .ok { st := s.writeCsr I.group.part I.group.ctx r.toNat (I.view.getS a.toNat) }) s

/-- `SAMPM` (R412). -/
def execSampm (n : BitVec 16) (s : State) : Host.Outcome State Fault Refusal :=
  runInstr (.sampm n) (fun I => .ok { st := I.put { I.warp with mark := n, markOld := I.warp.mark, markAt := some I.now } }) s

/-! ### Answers as events (R402) -/

/-- FAULT_ANSWER_RESUME. -/
def execFaultAnswerResume (part slot : Nat) (seq : BitVec 24) (s : State) : Host.Outcome State Fault Refusal :=
  .next (s.answer part slot (seq.setWidth 32))

/-- FAULT_ANSWER_SKIP. -/
def execFaultAnswerSkip (part slot : Nat) (seq : BitVec 24) (s : State) : Host.Outcome State Fault Refusal :=
  .next (s.answer part slot (0x40000000 + seq.setWidth 32))

/-- FAULT_ANSWER_KILL. -/
def execFaultAnswerKill (part slot : Nat) (seq : BitVec 24) (s : State) : Host.Outcome State Fault Refusal :=
  .next (s.answer part slot (0x80000000 + seq.setWidth 32))

/-- PAGER_DOORBELL_RETRY (R245). -/
def execPagerDoorbellRetry (part slot : Nat) (fut : BitVec 10) (s : State) : Host.Outcome State Fault Refusal :=
  .next (s.doorbell part slot (fut.setWidth 32))

/-- PAGER_DOORBELL_REFUSE (R245). -/
def execPagerDoorbellRefuse (part slot : Nat) (fut : BitVec 10) (s : State) : Host.Outcome State Fault Refusal :=
  .next (s.doorbell part slot (0x40000000 + fut.setWidth 32))

/-- HELD_RECORD_RETRY (R492). Additions that wait for a free future are tried again with it. -/
def execHeldRecordRetry (part slot : Nat) (s : State) : Host.Outcome State Fault Refusal :=
  .next ((s.retryQueues part slot).redoAdds part slot (fun a => a.future == none) false)

end Sys2Proof.Machine
end

