-- ==== Sys2Proof/Machine/VMem.lean ====
section
/-! DEFINITION. Classes 0x5 and 0x6: vector access to global memory and scratchpad, and atomics (R218 to R235). -/

namespace Sys2Proof.Machine

/-! ### Loads and stores of global memory (R218 to R223) -/

/-- The element index of each lane of the governing mask. -/
def Issue.indexed {w : Nat} (I : Issue) (i : BitVec w) : List (Nat × Nat) :=
  I.lanes.map (fun L => (L, (lane (I.vd i) L).toNat))

/-- The registers that a size takes (R218). -/
def sizeRegs (z : Nat) : Nat := if z = 5 then 2 else if z = 6 then 4 else 1

/-- Values written into one, two or four registers, lowest 4 bytes first, in the lanes of G. -/
def writeSized (w : Warp) (d z : Nat) (m : Word) (vs : List (Nat × Nat)) : Warp :=
  (List.range (sizeRegs z)).foldl (fun w r =>
    w.writeV (d + r) m (perLane (fun L => BitVec.ofNat 32 (extendSize z (laneNat vs L) / 2 ^ (32 * r))))) w

/-- The value of a lane of one, two or four registers. -/
def Issue.readSized (I : Issue) (d z L : Nat) : Nat :=
  (List.range (sizeRegs z)).foldl (fun a r => a + (lane (I.view.getV (d + r)) L).toNat * 2 ^ (32 * r)) 0

/-- `VLD` (R219). -/
def execVld (d i : BitVec 7) (n : BitVec 4) (z : BitVec 3) (t : BitVec 1) (s : State) : Host.Outcome State Fault Refusal :=
  runInstr (.vld d i n z t) (fun I =>
    let ls := I.resolve n (sizeBytes z.toNat) false (I.indexed i)
    match I.st.settle I.agent ls I.visitLoad false true with
    | .error e => .error e
    | .ok s =>
      let vs := s.loadLanes I.agent (sizeBytes z.toNat) ls
      .ok { st := s.setWarp (writeSized (I.at s).warp d.toNat z.toNat I.mask vs) }) s

/-- `VLDP` (R222): lanes of non-resident pages load zero and clear their bit of kd. The bit of a lane whose read a peer refuses is
set, since its page is resident (log entry 74). -/
def execVldp (d i : BitVec 7) (n : BitVec 4) (k : BitVec 3) (w : BitVec 1) (s : State) : Host.Outcome State Fault Refusal :=
  runInstr (.vldp d i n k w) (fun I =>
    let z := if w = 1#1 then 5 else 4
    let ls := (I.resolve n (sizeBytes z) false (I.indexed i)).filter (fun l =>
      match l.xlat with | some (.waits _) => false | _ => true)
    match I.st.settle I.agent ls I.visitLoad false true with
    | .error e => .error e
    | .ok s =>
      let vs := s.loadLanes I.agent (sizeBytes z) ls
      let bits := maskOf (fun L => vs.any (fun v => v.1 == L))
      .ok { st := s.setWarp ((writeSized (I.at s).warp d.toNat z I.mask vs).setK k.toNat (I.maskBits k bits)) }) s

/-- `VST` (R219, R221). -/
def execVst (a i : BitVec 7) (n : BitVec 4) (z : BitVec 3) (t : BitVec 1) (s : State) : Host.Outcome State Fault Refusal :=
  runInstr (.vst a i n z t) (fun I =>
    let ls := I.resolve n (sizeBytes z.toNat) true (I.indexed i)
    match I.store (sizeBytes z.toNat) ls I.ownLane (I.readSized a.toNat z.toNat) with
    | .error e => .error e
    | .ok s => .ok { st := s }) s

/-- `VPREF` (R223): brings lines into the L2, which holds no state of its own here, and never faults or waits. Its walks and its
prefetches of lines away from the die are messages of class 0 (R273). -/
def execVpref (i : BitVec 7) (n : BitVec 4) (t : BitVec 1) (s : State) : Host.Outcome State Fault Refusal :=
  runInstr (.vpref i n t) (fun I =>
    let ls := I.resolve n 1 false (I.indexed i)
    .ok { st := ((I.st.sendWalks I.agent .read (wantedVas ls)).toOption.getD I.st).sendReads I.agent (awayLanes I.agent.die ls) .prefetch }) s

/-! ### Scratchpad (R229 to R231) -/

/-- The size of the group's scratchpad on a core (R229). -/
def Issue.spadSize (I : Issue) : Nat := 65536 * I.grid.kd.sp

/-- The offset of an access of `z` bytes (R56, R229). -/
def Issue.spadOff (I : Issue) (off z : Nat) : Int :=
  match I.h.imm with
  | some v => v.toInt * (z : Int)
  | none => ((off * z : Nat) : Int)

/-- The exact address of each lane of G. -/
def Issue.spadAddrs {w : Nat} (I : Issue) (a : BitVec w) (off z : Nat) : List (Nat × Int) :=
  I.lanes.map (fun L => (L, ((lane (I.vd a) L).toNat : Int) + I.spadOff off z))

/-- The lanes of an access with their addresses, or its fault (R224, R229). -/
def Issue.spadLanes (I : Issue) (z : Nat) (as : List (Nat × Int)) : Except Stop (List (Nat × Nat)) :=
  let bounds := as.filter (fun p => decide (p.2 < 0) || decide ((I.spadSize : Int) < p.2 + z))
  let align := as.filter (fun p => decide (p.2 % (z : Int) ≠ 0) && !bounds.any (fun q => q.1 == p.1))
  let all := maskOf (fun L => (bounds ++ align).any (fun p => p.1 == L))
  match bounds, align with
  | p :: _, _ => .error (.trap { code := .bounds, detail := BitVec.ofInt 32 p.2, lanes := some all })
  | [], p :: _ => .error (.trap { code := .align, addr := (BitVec.ofInt 32 p.2).setWidth 64, lanes := some all })
  | [], [] => .ok (as.map (fun p => (p.1, p.2.toNat)))

/-- The scratchpad that the issuer reaches. -/
def Issue.spad (I : Issue) : List Host.Cell := I.group.spadAt I.warp.pos

/-- The state with the issuer's scratchpad written. -/
def Issue.putSpad (I : Issue) (s : State) (m : List Host.Cell) : State := s.writeSpad I.group.uid I.warp.pos m

/-- Values of lanes stored to a scratchpad, the highest lane last (R221). -/
def storeSpad (m : List Host.Cell) (z : Nat) (ps : List (Nat × Nat)) (val : Nat → Nat) : List Host.Cell :=
  ps.foldl (fun m p => memSetNat m p.2 z (val p.1)) m

/-- `VLDS` (R231). -/
def execVlds (d a : BitVec 7) (z : BitVec 3) (o : BitVec 5) (s : State) : Host.Outcome State Fault Refusal :=
  runInstr (.vlds d a z o) (fun I =>
    match I.spadLanes (sizeBytes z.toNat) (I.spadAddrs a o.toNat (sizeBytes z.toNat)) with
    | .error e => .error e
    | .ok ps =>
      let vs := ps.map (fun p => (p.1, memNat I.spad p.2 (sizeBytes z.toNat)))
      .ok { st := I.put (writeSized I.warp d.toNat z.toNat I.mask vs) }) s

/-- `VSTS` (R231). -/
def execVsts (b a : BitVec 7) (z : BitVec 3) (o : BitVec 5) (s : State) : Host.Outcome State Fault Refusal :=
  runInstr (.vsts b a z o) (fun I =>
    match I.spadLanes (sizeBytes z.toNat) (I.spadAddrs a o.toNat (sizeBytes z.toNat)) with
    | .error e => .error e
    | .ok ps => .ok { st := I.putSpad I.st (storeSpad I.spad (sizeBytes z.toNat) ps (I.readSized b.toNat z.toNat)) }) s

/-! ### Atomics on global memory (R226 to R228) -/

/-- The bytes of an atomic: WID 1 is b64 (R226). -/
def Issue.atomSize (I : Issue) : Nat := if I.h.m.wid = 1 then 8 else 4

/-- The size code of an atomic. -/
def Issue.atomCode (I : Issue) : Nat := if I.h.m.wid = 1 then 5 else 4

/-- The lanes that a clamped access leaves out, which receive zero (R227). -/
def clampedLanes (ls : List LaneState) : Word := maskOf (fun L => ls.any (fun l => l.lane == L && l.chk == .clamped))

/-- `VATOM` (R227). -/
def execVatom (f d i v : BitVec 6) (n : BitVec 4) (s : State) : Host.Outcome State Fault Refusal :=
  runInstr (.vatom f d i v n) (fun I =>
    let ls := I.resolve n I.atomSize true (I.indexed i)
    I.atomics ls I.atomSize f.toNat I.ownLane (I.readSized v.toNat I.atomCode) (fun _ => none)
      (.vector d.toNat (I.h.m.wid == 1) (clampedLanes ls))) s

/-- `VCAS` (R227). -/
def execVcas (d i v : BitVec 6) (n : BitVec 4) (s : State) : Host.Outcome State Fault Refusal :=
  runInstr (.vcas d i v n) (fun I =>
    let ls := I.resolve n I.atomSize true (I.indexed i)
    I.atomics ls I.atomSize 9 I.ownLane (I.readSized v.toNat I.atomCode)
      (fun L => some (I.readSized d.toNat I.atomCode L)) (.vector d.toNat (I.h.m.wid == 1) (clampedLanes ls))) s

/-- `VRED` (R227). -/
def execVred (o i v : BitVec 6) (n : BitVec 4) (s : State) : Host.Outcome State Fault Refusal :=
  runInstr (.vred o i v n) (fun I =>
    let ls := I.resolve n I.atomSize true (I.indexed i)
    I.atomics ls I.atomSize o.toNat I.ownLane (I.readSized v.toNat I.atomCode) (fun _ => none) .nowhere) s

/-! ### Atomics and locks on the scratchpad (R232 to R234) -/

/-- One lane of a scratchpad atomic: the memory, and the old value. -/
def spadAtomic (m : List Host.Cell) (r : AtomReq) : List Host.Cell × Nat :=
  let old := memNat m r.key r.size
  (memSetNat m r.key r.size (r.value old), old)

/-- The lanes of a scratchpad atomic, ascending. A lane whose lock is held waits, and the others perform; the results are written
when the last lane has performed (R233). -/
def Issue.spadAtomics (I : Issue) (i : Instr) (a : BitVec 6) (op : Nat) (b : Nat → Nat) (cmp : Nat → Option Nat) (d : BitVec 6) :
    Except Stop Done :=
  match I.spadLanes I.atomSize (I.spadAddrs a 0 I.atomSize) with
  | .error e => .error e
  | .ok ps =>
    let did := (I.frag.latch.map Latch.did).getD 0
    let todo := ps.filter (fun p => !did.getLsbD p.1)
    let late := todo.filter (fun p => I.st.lockHeld I.warp.core (lockOf p.2))
    let r := (todo.filter (fun p => !late.contains p)).foldl (fun (acc : List Host.Cell × List (Nat × Nat)) p =>
      let x := spadAtomic acc.1 { lane := p.1, key := p.2, size := I.atomSize, op := op, b := BitVec.ofNat 64 (b p.1),
                                  cmp := (cmp p.1).map (BitVec.ofNat 64), va := p.2 }
      (x.1, acc.2 ++ [(p.1, x.2)])) (I.spad, (I.frag.latch.map Latch.got).getD [])
    if late.isEmpty then .ok { st := I.putSpad (I.put (writeSized I.warp d.toNat I.atomCode I.mask r.2)) r.1 }
    else
      let w := Wait.lock (late.map Prod.snd)
      let l := I.frag.latch.getD (I.latch i w)
      let l := { l with did := maskOf (fun L => r.2.any (fun p => p.1 == L)), got := r.2 }
      .error (.wait (I.putSpad (I.put (I.warp.setFrag { I.frag with latch := some l })) r.1) w)

/-- `VSATOM` (R233). -/
def execVsatom (d a v : BitVec 6) (o : BitVec 4) (s : State) : Host.Outcome State Fault Refusal :=
  runInstr (.vsatom d a v o) (fun I => I.spadAtomics (.vsatom d a v o) a o.toNat (I.readSized v.toNat I.atomCode) (fun _ => none) d) s

/-- `VSCAS` (R233). -/
def execVscas (d a v : BitVec 6) (s : State) : Host.Outcome State Fault Refusal :=
  runInstr (.vscas d a v) (fun I =>
    I.spadAtomics (.vscas d a v) a 9 (I.readSized v.toNat I.atomCode) (fun L => some (I.readSized d.toNat I.atomCode L)) d) s

/-- The lanes that take their locks, ascending, beside the locks held (R234). -/
def takeLocks (s : State) (core : Nat) : List Nat → List (Nat × Nat) → List (Nat × Nat)
  | _, [] => []
  | taken, p :: ps =>
    if s.lockHeld core (lockOf p.2) || taken.contains (lockOf p.2) then takeLocks s core taken ps
    else p :: takeLocks s core (lockOf p.2 :: taken) ps

/-- `VLDL` (R234): lanes whose lock is held elsewhere form a fragment that issues the instruction again; when they are all the
active lanes, the fragment stays at the instruction (log entry 101). -/
def execVldl (d a : BitVec 7) (o : BitVec 5) (s : State) : Host.Outcome State Fault Refusal :=
  runInstr (.vldl d a o) (fun I =>
    match I.spadLanes I.atomSize (I.spadAddrs a o.toNat I.atomSize) with
    | .error e => .error e
    | .ok ps =>
      let w := I.warp.releaseLocks I.mask
      let st := I.put w
      let got := takeLocks st w.core [] ps
      let late := maskOf (fun L => ps.any (fun p => p.1 == L) && !got.any (fun p => p.1 == L))
      if late ≠ 0 ∧ late = I.active then
        .ok { st := I.put (w.setFrag { I.frag.retry with stallTill := I.stall }), flow := .done }
      else
        let vs := got.map (fun p => (p.1, memNat I.spad p.2 I.atomSize))
        let took := maskOf (fun L => got.any (fun p => p.1 == L))
        let w := writeSized { w with locks := w.locks ++ got } d.toNat I.atomCode took vs
        if late = 0 then .ok { st := I.st.setWarp w }
        else
          let new : Frag := { Frag.fresh w.nextFrag w.freeRecord late I.frag.head with
            ret := I.frag.ret, conv := I.frag.conv, stallTill := I.stall }
          let w := w.setFrag { I.frag with lanes := I.active &&& ~~~late }
          .ok { st := I.st.setWarp { w with frags := w.frags ++ [new], nextFrag := w.nextFrag + 1 },
                flow := .jump (I.frag.pc + 4) }) s

/-- `VSTUL` (R234): a store, after which the lanes of G hold no lock. -/
def execVstul (b a : BitVec 7) (o : BitVec 5) (s : State) : Host.Outcome State Fault Refusal :=
  runInstr (.vstul b a o) (fun I =>
    match I.spadLanes I.atomSize (I.spadAddrs a o.toNat I.atomSize) with
    | .error e => .error e
    | .ok ps =>
      let m := storeSpad I.spad I.atomSize ps (I.readSized b.toNat I.atomCode)
      .ok { st := I.putSpad (I.put (I.warp.releaseLocks I.mask)) m }) s

end Sys2Proof.Machine
end

