-- ==== Sys2Proof/Machine/Dispatch.lean ====
section
/-! DEFINITION. One arm per constructor of `Instr`: the meaning of every instruction and event of the opcode table. -/

namespace Sys2Proof.Machine

/-- The meaning of an instruction, of the fragment that `State.cur` names, or of an event. -/
def exec (i : Instr) (s : State) : Host.Outcome State Fault Refusal :=
  match i with
  | .sadd d a b ib => Sys2Proof.Machine.execSadd d a b ib s
  | .saddc d a b ib c => Sys2Proof.Machine.execSaddc d a b ib c s
  | .ssub d a b ib => Sys2Proof.Machine.execSsub d a b ib s
  | .ssubb d a b ib c => Sys2Proof.Machine.execSsubb d a b ib c s
  | .smul d a b ib => Sys2Proof.Machine.execSmul d a b ib s
  | .smulhi d a b ib => Sys2Proof.Machine.execSmulhi d a b ib s
  | .smulhu d a b ib => Sys2Proof.Machine.execSmulhu d a b ib s
  | .smad d a b ib => Sys2Proof.Machine.execSmad d a b ib s
  | .sdiv d a b ib => Sys2Proof.Machine.execSdiv d a b ib s
  | .sdivu d a b ib => Sys2Proof.Machine.execSdivu d a b ib s
  | .srem d a b ib => Sys2Proof.Machine.execSrem d a b ib s
  | .sremu d a b ib => Sys2Proof.Machine.execSremu d a b ib s
  | .sand d a b ib => Sys2Proof.Machine.execSand d a b ib s
  | .sor d a b ib => Sys2Proof.Machine.execSor d a b ib s
  | .sxor d a b ib => Sys2Proof.Machine.execSxor d a b ib s
  | .sandn d a b ib => Sys2Proof.Machine.execSandn d a b ib s
  | .sshl d a b ib => Sys2Proof.Machine.execSshl d a b ib s
  | .sshr d a b ib => Sys2Proof.Machine.execSshr d a b ib s
  | .ssra d a b ib => Sys2Proof.Machine.execSsra d a b ib s
  | .srol d a b ib => Sys2Proof.Machine.execSrol d a b ib s
  | .smin d a b ib => Sys2Proof.Machine.execSmin d a b ib s
  | .smax d a b ib => Sys2Proof.Machine.execSmax d a b ib s
  | .sminu d a b ib => Sys2Proof.Machine.execSminu d a b ib s
  | .smaxu d a b ib => Sys2Proof.Machine.execSmaxu d a b ib s
  | .scmp k c a b ib => Sys2Proof.Machine.execScmp k c a b ib s
  | .ssel d a b ib c => Sys2Proof.Machine.execSsel d a b ib c s
  | .smov d a => Sys2Proof.Machine.execSmov d a s
  | .smovi d ib => Sys2Proof.Machine.execSmovi d ib s
  | .smovhi d ib => Sys2Proof.Machine.execSmovhi d ib s
  | .sclz d a => Sys2Proof.Machine.execSclz d a s
  | .spopc d a => Sys2Proof.Machine.execSpopc d a s
  | .sbfe d a b ib => Sys2Proof.Machine.execSbfe d a b ib s
  | .sbfi d a b ib => Sys2Proof.Machine.execSbfi d a b ib s
  | .sadd64 d a b ib => Sys2Proof.Machine.execSadd64 d a b ib s
  | .ssub64 d a b ib => Sys2Proof.Machine.execSsub64 d a b ib s
  | .sshl64 d a b ib => Sys2Proof.Machine.execSshl64 d a b ib s
  | .sshr64 d a b ib => Sys2Proof.Machine.execSshr64 d a b ib s
  | .sld d ib n z => Sys2Proof.Machine.execSld d ib n z s
  | .sst sn ib n z => Sys2Proof.Machine.execSst sn ib n z s
  | .satom sn ib n z o => Sys2Proof.Machine.execSatom sn ib n z o s
  | .scas sn ib n z => Sys2Proof.Machine.execScas sn ib n z s
  | .sget d n => Sys2Proof.Machine.execSget d n s
  | .ssetx sn n => Sys2Proof.Machine.execSsetx sn n s
  | .dload m ib n => Sys2Proof.Machine.execDload m ib n s
  | .dmake sn n => Sys2Proof.Machine.execDmake sn n s
  | .dset sn n o => Sys2Proof.Machine.execDset sn n o s
  | .dget sn n => Sys2Proof.Machine.execDget sn n s
  | .pgreq sn w t => Sys2Proof.Machine.execPgreq sn w t s
  | .fence => Sys2Proof.Machine.execFence s
  | .sldk d n => Sys2Proof.Machine.execSldk d n s
  | .bra o => Sys2Proof.Machine.execBra o s
  | .brac c sn o => Sys2Proof.Machine.execBrac c sn o s
  | .brak k sn o => Sys2Proof.Machine.execBrak k sn o s
  | .braka k sn o => Sys2Proof.Machine.execBraka k sn o s
  | .call o => Sys2Proof.Machine.execCall o s
  | .calli sn n => Sys2Proof.Machine.execCalli sn n s
  | .ret => Sys2Proof.Machine.execRet s
  | .jmpi sn n => Sys2Proof.Machine.execJmpi sn n s
  | .cvset o => Sys2Proof.Machine.execCvset o s
  | .cvwait => Sys2Proof.Machine.execCvwait s
  | .exit => Sys2Proof.Machine.execExit s
  | .nop => Sys2Proof.Machine.execNop s
  | .yield => Sys2Proof.Machine.execYield s
  | .loop sn o => Sys2Proof.Machine.execLoop sn o s
  | .vadd d a b ib => Sys2Proof.Machine.execVadd d a b ib s
  | .vavg d a b ib => Sys2Proof.Machine.execVavg d a b ib s
  | .vsub d a b ib => Sys2Proof.Machine.execVsub d a b ib s
  | .vmul d a b ib => Sys2Proof.Machine.execVmul d a b ib s
  | .vmulhi d a b ib => Sys2Proof.Machine.execVmulhi d a b ib s
  | .vmulhu d a b ib => Sys2Proof.Machine.execVmulhu d a b ib s
  | .vmad d a b ib => Sys2Proof.Machine.execVmad d a b ib s
  | .vand d a b ib => Sys2Proof.Machine.execVand d a b ib s
  | .vor d a b ib => Sys2Proof.Machine.execVor d a b ib s
  | .vxor d a b ib => Sys2Proof.Machine.execVxor d a b ib s
  | .vandn d a b ib => Sys2Proof.Machine.execVandn d a b ib s
  | .vshl d a b ib => Sys2Proof.Machine.execVshl d a b ib s
  | .vshr d a b ib => Sys2Proof.Machine.execVshr d a b ib s
  | .vsra d a b ib => Sys2Proof.Machine.execVsra d a b ib s
  | .vmin d a b ib => Sys2Proof.Machine.execVmin d a b ib s
  | .vmax d a b ib => Sys2Proof.Machine.execVmax d a b ib s
  | .vminu d a b ib => Sys2Proof.Machine.execVminu d a b ib s
  | .vmaxu d a b ib => Sys2Proof.Machine.execVmaxu d a b ib s
  | .vabsd d a b ib => Sys2Proof.Machine.execVabsd d a b ib s
  | .vsad d a b ib => Sys2Proof.Machine.execVsad d a b ib s
  | .vcmp k c a b ib => Sys2Proof.Machine.execVcmp k c a b ib s
  | .vsel d a b ib => Sys2Proof.Machine.execVsel d a b ib s
  | .vmov d a => Sys2Proof.Machine.execVmov d a s
  | .vmovi d ib => Sys2Proof.Machine.execVmovi d ib s
  | .vmovs d sn => Sys2Proof.Machine.execVmovs d sn s
  | .vclz d a => Sys2Proof.Machine.execVclz d a s
  | .vpopc d a => Sys2Proof.Machine.execVpopc d a s
  | .vbfe d a b ib => Sys2Proof.Machine.execVbfe d a b ib s
  | .vbfi d a b ib => Sys2Proof.Machine.execVbfi d a b ib s
  | .vadd64 d a b ib => Sys2Proof.Machine.execVadd64 d a b ib s
  | .vsub64 d a b ib => Sys2Proof.Machine.execVsub64 d a b ib s
  | .vidx d ib => Sys2Proof.Machine.execVidx d ib s
  | .vfadd p d a b ib => Sys2Proof.Machine.execVfadd p d a b ib s
  | .vfsub p d a b ib => Sys2Proof.Machine.execVfsub p d a b ib s
  | .vfmul p d a b ib => Sys2Proof.Machine.execVfmul p d a b ib s
  | .vfma p d a b ib => Sys2Proof.Machine.execVfma p d a b ib s
  | .vfmin p d a b ib => Sys2Proof.Machine.execVfmin p d a b ib s
  | .vfmax p d a b ib => Sys2Proof.Machine.execVfmax p d a b ib s
  | .vfcmp p k c a b ib => Sys2Proof.Machine.execVfcmp p k c a b ib s
  | .vfrnd p d a => Sys2Proof.Machine.execVfrnd p d a s
  | .vfcls p d a => Sys2Proof.Machine.execVfcls p d a s
  | .vfrcp d a => Sys2Proof.Machine.execVfrcp d a s
  | .vfrsq d a => Sys2Proof.Machine.execVfrsq d a s
  | .vfsqrt p d a => Sys2Proof.Machine.execVfsqrt p d a s
  | .vfdiv p d a b ib => Sys2Proof.Machine.execVfdiv p d a b ib s
  | .vfexp2 d a => Sys2Proof.Machine.execVfexp2 d a s
  | .vflog2 d a => Sys2Proof.Machine.execVflog2 d a s
  | .vftrig d a t => Sys2Proof.Machine.execVftrig d a t s
  | .vld d ib n z t => Sys2Proof.Machine.execVld d ib n z t s
  | .vldp d ib n k w => Sys2Proof.Machine.execVldp d ib n k w s
  | .vst sn ib n z t => Sys2Proof.Machine.execVst sn ib n z t s
  | .vlds d a z o => Sys2Proof.Machine.execVlds d a z o s
  | .vsts sn a z o => Sys2Proof.Machine.execVsts sn a z o s
  | .vpref ib n t => Sys2Proof.Machine.execVpref ib n t s
  | .vatom f d ib sn n => Sys2Proof.Machine.execVatom f d ib sn n s
  | .vcas d ib sn n => Sys2Proof.Machine.execVcas d ib sn n s
  | .vred o ib sn n => Sys2Proof.Machine.execVred o ib sn n s
  | .vsatom d a sn o => Sys2Proof.Machine.execVsatom d a sn o s
  | .vscas d a sn => Sys2Proof.Machine.execVscas d a sn s
  | .vldl d a o => Sys2Proof.Machine.execVldl d a o s
  | .vstul sn a o => Sys2Proof.Machine.execVstul sn a o s
  | .vshfl d a b ib => Sys2Proof.Machine.execVshfl d a b ib s
  | .vperm d a b => Sys2Proof.Machine.execVperm d a b s
  | .vmatch k a m => Sys2Proof.Machine.execVmatch k a m s
  | .vballot k c a b ib => Sys2Proof.Machine.execVballot k c a b ib s
  | .vvote k c a b ib => Sys2Proof.Machine.execVvote k c a b ib s
  | .vredx d a o => Sys2Proof.Machine.execVredx d a o s
  | .vscanx d a o => Sys2Proof.Machine.execVscanx d a o s
  | .velect k => Sys2Proof.Machine.execVelect k s
  | .kand d a b => Sys2Proof.Machine.execKand d a b s
  | .kor d a b => Sys2Proof.Machine.execKor d a b s
  | .kxor d a b => Sys2Proof.Machine.execKxor d a b s
  | .knot d a => Sys2Proof.Machine.execKnot d a s
  | .kmov d a => Sys2Proof.Machine.execKmov d a s
  | .kcnt sn k => Sys2Proof.Machine.execKcnt sn k s
  | .kfirst sn k => Sys2Proof.Machine.execKfirst sn k s
  | .ktos sn k => Sys2Proof.Machine.execKtos sn k s
  | .stok sn k => Sys2Proof.Machine.execStok sn k s
  | .vpackb d a p => Sys2Proof.Machine.execVpackb d a p s
  | .vpackn d a p => Sys2Proof.Machine.execVpackn d a p s
  | .vpack6 d a p => Sys2Proof.Machine.execVpack6 d a p s
  | .vunpk6 d a p => Sys2Proof.Machine.execVunpk6 d a p s
  | .vcmpr d a => Sys2Proof.Machine.execVcmpr d a s
  | .vxpnd d a => Sys2Proof.Machine.execVxpnd d a s
  | .tmma t a b c => Sys2Proof.Machine.execTmma t a b c s
  | .tmmax t a b c => Sys2Proof.Machine.execTmmax t a b c s
  | .tzero t => Sys2Proof.Machine.execTzero t s
  | .tfill t a => Sys2Proof.Machine.execTfill t a s
  | .tscale t a b => Sys2Proof.Machine.execTscale t a b s
  | .tsmx t a b => Sys2Proof.Machine.execTsmx t a b s
  | .tdrain t a b => Sys2Proof.Machine.execTdrain t a b s
  | .tamaxr t a => Sys2Proof.Machine.execTamaxr t a s
  | .tsider t a b => Sys2Proof.Machine.execTsider t a b s
  | .tsidew t a b => Sys2Proof.Machine.execTsidew t a b s
  | .tgang t a => Sys2Proof.Machine.execTgang t a s
  | .tfence => Sys2Proof.Machine.execTfence s
  | .twait t => Sys2Proof.Machine.execTwait t s
  | .cpy n c sn b m => Sys2Proof.Machine.execCpy n c sn b m s
  | .cpys n c sn b m => Sys2Proof.Machine.execCpys n c sn b m s
  | .cpyt n c sn b m => Sys2Proof.Machine.execCpyt n c sn b m s
  | .cpym n c sn b m => Sys2Proof.Machine.execCpym n c sn b m s
  | .cpyr n c sn b m => Sys2Proof.Machine.execCpyr n c sn b m s
  | .cpyg n c sn b m => Sys2Proof.Machine.execCpyg n c sn b m s
  | .cpyp n c sn m => Sys2Proof.Machine.execCpyp n c sn m s
  | .cpyw => Sys2Proof.Machine.execCpyw s
  | .cpyx c => Sys2Proof.Machine.execCpyx c s
  | .qpush q sn => Sys2Proof.Machine.execQpush q sn s
  | .qpop q sn => Sys2Proof.Machine.execQpop q sn s
  | .qtry q sn => Sys2Proof.Machine.execQtry q sn s
  | .qrsv q sn => Sys2Proof.Machine.execQrsv q sn s
  | .qcmt q sn => Sys2Proof.Machine.execQcmt q sn s
  | .qrel q sn => Sys2Proof.Machine.execQrel q sn s
  | .qlen q sn => Sys2Proof.Machine.execQlen q sn s
  | .mbsend sn m => Sys2Proof.Machine.execMbsend sn m s
  | .mbrecv sn m => Sys2Proof.Machine.execMbrecv sn m s
  | .binit b sn => Sys2Proof.Machine.execBinit b sn s
  | .barv b => Sys2Proof.Machine.execBarv b s
  | .barw b sn o => Sys2Proof.Machine.execBarw b sn o s
  | .barx b sn a => Sys2Proof.Machine.execBarx b sn a s
  | .bsync b => Sys2Proof.Machine.execBsync b s
  | .bphase b sn => Sys2Proof.Machine.execBphase b sn s
  | .ggrow sn c r n => Sys2Proof.Machine.execGgrow sn c r n s
  | .gleave => Sys2Proof.Machine.execGleave s
  | .ginfo sn e => Sys2Proof.Machine.execGinfo sn e s
  | .klaunch sn q => Sys2Proof.Machine.execKlaunch sn q s
  | .sigadd sn e => Sys2Proof.Machine.execSigadd sn e s
  | .sigwait sn e => Sys2Proof.Machine.execSigwait sn e s
  | .rgclm sn n => Sys2Proof.Machine.execRgclm sn n s
  | .rggiv sn n => Sys2Proof.Machine.execRggiv sn n s
  | .rdef c x => Sys2Proof.Machine.execRdef c x s
  | .rtag d x => Sys2Proof.Machine.execRtag d x s
  | .rseal d => Sys2Proof.Machine.execRseal d s
  | .rdrop d => Sys2Proof.Machine.execRdrop d s
  | .rfree x => Sys2Proof.Machine.execRfree x s
  | .rgqry sn => Sys2Proof.Machine.execRgqry sn s
  | .fmtset f sn => Sys2Proof.Machine.execFmtset f sn s
  | .fmtget f sn => Sys2Proof.Machine.execFmtget f sn s
  | .fmtchk f sn => Sys2Proof.Machine.execFmtchk f sn s
  | .vcvt d a g f => Sys2Proof.Machine.execVcvt d a g f s
  | .vcvto d a g f => Sys2Proof.Machine.execVcvto d a g f s
  | .vcvts d a g f => Sys2Proof.Machine.execVcvts d a g f s
  | .trap n => Sys2Proof.Machine.execTrap n s
  | .assert sn n => Sys2Proof.Machine.execAssert sn n s
  | .clkr sn e => Sys2Proof.Machine.execClkr sn e s
  | .featr sn n => Sys2Proof.Machine.execFeatr sn n s
  | .sleep n => Sys2Proof.Machine.execSleep n s
  | .csrd sn r => Sys2Proof.Machine.execCsrd sn r s
  | .cswr sn r => Sys2Proof.Machine.execCswr sn r s
  | .sampm n => Sys2Proof.Machine.execSampm n s
  | .bkpt n => Sys2Proof.Machine.execBkpt n s
  | .hsch a b c d e f g h j y => Sys2Proof.Machine.execHsch a b c d e f g h j y s
  | .himm ib => Sys2Proof.Machine.execHimm ib s
  | .himmx x => Sys2Proof.Machine.execHimmx x s
  | .hmod sn o r t w a b n m x y g => Sys2Proof.Machine.execHmod sn o r t w a b n m x y g s
  | .hpred k v => Sys2Proof.Machine.execHpred k v s
  | .hperm p a q b sn => Sys2Proof.Machine.execHperm p a q b sn s
  | .unassignedEncoding word => Sys2Proof.Machine.execUnassignedEncoding word s
  | .registerArbiter core => Sys2Proof.Machine.execRegisterArbiter core s
  | .fragmentPromotion warp frag => Sys2Proof.Machine.execFragmentPromotion warp frag s
  | .sleepExpire warp frag => Sys2Proof.Machine.execSleepExpire warp frag s
  | .formatUpdateComplete part slot n => Sys2Proof.Machine.execFormatUpdateComplete part slot n s
  | .tileOpComplete core => Sys2Proof.Machine.execTileOpComplete core s
  | .copyOwnershipGrant line => Sys2Proof.Machine.execCopyOwnershipGrant line s
  | .copyStart core => Sys2Proof.Machine.execCopyStart core s
  | .copyComplete core copy => Sys2Proof.Machine.execCopyComplete core copy s
  | .storeBufferTimeout core => Sys2Proof.Machine.execStoreBufferTimeout core s
  | .promotionDrainRequest line => Sys2Proof.Machine.execPromotionDrainRequest line s
  | .promotionDrainReply line => Sys2Proof.Machine.execPromotionDrainReply line s
  | .flowMessageArrival flow => Sys2Proof.Machine.execFlowMessageArrival flow s
  | .flowAcknowledgement flow => Sys2Proof.Machine.execFlowAcknowledgement flow s
  | .peerRefusal flow => Sys2Proof.Machine.execPeerRefusal flow s
  | .permitReturn link cls => Sys2Proof.Machine.execPermitReturn link cls s
  | .permitAudit link c0 c1 c2 c3 => Sys2Proof.Machine.execPermitAudit link c0 c1 c2 c3 s
  | .linkError link => Sys2Proof.Machine.execLinkError link s
  | .linkTrainingDone link full => Sys2Proof.Machine.execLinkTrainingDone link full s
  | .linkTrainingFail link => Sys2Proof.Machine.execLinkTrainingFail link s
  | .linkEnable link => Sys2Proof.Machine.execLinkEnable link s
  | .linkDisable link => Sys2Proof.Machine.execLinkDisable link s
  | .remoteWaitThreshold warp frag => Sys2Proof.Machine.execRemoteWaitThreshold warp frag s
  | .hostMemAccess addr data write => Sys2Proof.Machine.execHostMemAccess addr data write s
  | .backInvalidateResponse line => Sys2Proof.Machine.execBackInvalidateResponse line s
  | .messageReceivable mbox => Sys2Proof.Machine.execMessageReceivable mbox s
  | .placementAttempt part => Sys2Proof.Machine.execPlacementAttempt part s
  | .eviction group => Sys2Proof.Machine.execEviction group s
  | .phaseRecordComplete group => Sys2Proof.Machine.execPhaseRecordComplete group s
  | .groupRestore group => Sys2Proof.Machine.execGroupRestore group s
  | .attachServed group role => Sys2Proof.Machine.execAttachServed group role s
  | .groupRetire group => Sys2Proof.Machine.execGroupRetire group s
  | .preemptLate group => Sys2Proof.Machine.execPreemptLate group s
  | .hung group => Sys2Proof.Machine.execHung group s
  | .evthAfterEviction group => Sys2Proof.Machine.execEvthAfterEviction group s
  | .sigwaitPoll warp frag => Sys2Proof.Machine.execSigwaitPoll warp frag s
  | .packetRead part slot queue => Sys2Proof.Machine.execPacketRead part slot queue s
  | .dependencePoll part slot queue => Sys2Proof.Machine.execDependencePoll part slot queue s
  | .packetBarrier part slot queue => Sys2Proof.Machine.execPacketBarrier part slot queue s
  | .launch part slot queue => Sys2Proof.Machine.execLaunch part slot queue s
  | .signal part slot queue => Sys2Proof.Machine.execSignal part slot queue s
  | .shootdown part slot queue => Sys2Proof.Machine.execShootdown part slot queue s
  | .shootdownComplete part slot queue => Sys2Proof.Machine.execShootdownComplete part slot queue s
  | .gridComplete grid => Sys2Proof.Machine.execGridComplete grid s
  | .heldRecordRetry part slot => Sys2Proof.Machine.execHeldRecordRetry part slot s
  | .create part slot arg => Sys2Proof.Machine.execCreate part slot arg s
  | .save part slot => Sys2Proof.Machine.execSave part slot s
  | .saveComplete part slot => Sys2Proof.Machine.execSaveComplete part slot s
  | .resume part slot => Sys2Proof.Machine.execResume part slot s
  | .destroy part slot => Sys2Proof.Machine.execDestroy part slot s
  | .destroyComplete part slot => Sys2Proof.Machine.execDestroyComplete part slot s
  | .faultAnswerResume part slot seq => Sys2Proof.Machine.execFaultAnswerResume part slot seq s
  | .faultAnswerSkip part slot seq => Sys2Proof.Machine.execFaultAnswerSkip part slot seq s
  | .faultAnswerKill part slot seq => Sys2Proof.Machine.execFaultAnswerKill part slot seq s
  | .pagerDoorbellRetry part slot fut => Sys2Proof.Machine.execPagerDoorbellRetry part slot fut s
  | .pagerDoorbellRefuse part slot fut => Sys2Proof.Machine.execPagerDoorbellRefuse part slot fut s
  | .debugKill part cmd => Sys2Proof.Machine.execDebugKill part cmd s
  | .partqWrite v => Sys2Proof.Machine.execPartqWrite v s
  | .mbcfgWrite mbox v => Sys2Proof.Machine.execMbcfgWrite mbox v s
  | .accessTableWrite target entry v => Sys2Proof.Machine.execAccessTableWrite target entry v s
  | .start v => Sys2Proof.Machine.execStart v s
  | .kernelCommit part kid cfg => Sys2Proof.Machine.execKernelCommit part kid cfg s
  | .kernelWithdraw part kid cfg => Sys2Proof.Machine.execKernelWithdraw part kid cfg s
  | .queueEnable part slot queue cfg => Sys2Proof.Machine.execQueueEnable part slot queue cfg s
  | .queueDisable part slot queue cfg => Sys2Proof.Machine.execQueueDisable part slot queue cfg s
  | .wptr part slot queue v => Sys2Proof.Machine.execWptr part slot queue v s
  | .smpcfg part v => Sys2Proof.Machine.execSmpcfg part v s
  | .samplerCounterClear part idle v => Sys2Proof.Machine.execSamplerCounterClear part idle v s
  | .firmwareStage image => Sys2Proof.Machine.execFirmwareStage image s
  | .securityVersionRaise v => Sys2Proof.Machine.execSecurityVersionRaise v s
  | .getMeasurements => Sys2Proof.Machine.execGetMeasurements s
  | .registerWrite bar offset size v => Sys2Proof.Machine.execRegisterWrite bar offset size v s
  | .sampleTick core => Sys2Proof.Machine.execSampleTick core s
  | .sensorRead reading => Sys2Proof.Machine.execSensorRead reading s
  | .clockRaise quire => Sys2Proof.Machine.execClockRaise quire s
  | .patrolScrub die found => Sys2Proof.Machine.execPatrolScrub die found s
  | .eccCorrectable die cls => Sys2Proof.Machine.execEccCorrectable die cls s
  | .eccUncorrectable die cls site => Sys2Proof.Machine.execEccUncorrectable die cls site s
  | .reset => Sys2Proof.Machine.execReset s
  | .instructionFetch => Sys2Proof.Machine.execInstructionFetch s
  | .lineRequestComplete core warp frag => Sys2Proof.Machine.execLineRequestComplete core warp frag s
  | .preemptionWithdraw group => Sys2Proof.Machine.execPreemptionWithdraw group s

end Sys2Proof.Machine
end

