-- ==== Sys2Proof/Machine/Due.lean ====
section
/-! DEFINITION. What the device does of itself: the bounded waits that are over, and the events that are due, in the order in which
a step tries them when no agenda says otherwise (log entry 1). -/

namespace Sys2Proof.Machine

/-! ### Waits that are over -/

/-- Whether a bounded wait of a fragment is over, so that its instruction goes on (R233, R256, R262, R265, R294, R324, R436). -/
def State.waitOver (s : State) (w : Warp) (f : Frag) : Bool :=
  match f.wait with
  | .copies => !s.awaitedCopies w.uid
  | .tile t own drains upto => !s.tileBusy w t own drains upto
  | .lock as => as.any (fun a => !s.lockHeld w.core (lockOf a))
  | .access => !s.accessAhead { warp := w.uid, frag := f.id } f.bytes
  | .acks sys upto => !(s.unperformed w.core upto || (sys && s.unacknowledged w.core upto))
  | .stores lanes upto => !s.lanesUnperformed w.uid lanes upto
  | .walk keys => keys.all (s.reaches (dieOf w.core) 0) && (s.crossReads (Sender.ofDie (dieOf w.core) 6 0) keys).isSome
  | .crossing die cls key => s.exchanges die cls key
  | .leaving => !w.othersAct f.id
  | _ => false

/-- The fragment after its wait; one that waited for tile operations has waited enough. -/
def Frag.goOn (f : Frag) : Frag :=
  match f.wait with
  | .tile .. => { f.retry with granted := true }
  | _ => f.retry

def State.wakeBounded (s : State) : State :=
  { s with warps := s.warps.map (fun w =>
      if w.frags.any (s.waitOver w) then { w with frags := w.frags.map (fun f => if s.waitOver w f then f.goOn else f) } else w) }

/-- Since when each group is hung (R387). -/
def State.noteHung (s : State) : State :=
  { s with groups := s.groups.map (fun (g : Group) =>
      if s.isHung g then { g with hungSince := some (g.hungSince.getD s.ticks) } else { g with hungSince := none }) }

/-- Whether a record of a context waits for a release that is over (R401). -/
def State.freesRecord (s : State) (c : Ctx) : Bool :=
  c.heldFaults.any (fun r => r.behind.isSome && (s.behindOver r).behind.isNone)

/-- What the memory system does at once: messages perform at homes that no longer hold them back, due stores leave their buffers, copy
units send their requests for lines, and records whose release is over are written. -/
def State.settleMemory (s : State) : State :=
  let s := s.serveHomes.pushDue.askLines
  (s.ctxs.filter s.freesRecord).foldl (fun s c => (s.ctx? c.part c.slot).elim s s.flushFaultsOf) s

/-- What the headbox goes on with once its accesses are within reach (log entry 83). -/
def State.settleHeadbox (s : State) : State :=
  let s := (s.groups.filter (fun g => g.doomed && g.state == .evicted)).foldl (fun s g => s.endDoomed g.uid) s
  s.retryCommits.retryResume

/-- The kills of resident groups go as far as they can (R405). -/
def State.settleKills (s : State) : State :=
  (s.groups.filter (fun g => !g.kills.isEmpty)).foldl (fun s g => s.stepKills g.uid) s

/-- What follows every turn: what can proceed does, waits end, groups follow their warps (R366), hung groups are noted, and MSI-X
messages and sample records leave (R401, R453). -/
def State.settled (s : State) : State := s.settleMemory.settleHeadbox.wakeBounded.settleKills.settleGroups.noteHung.sendIrqs.settleSamples

/-! ### The clock and the mailboxes (R346) -/

/-- The bound of a mailbox class in nominal clocks; class 3 has none. -/
def classBound : Nat → Option Nat
  | 0 => some 5400
  | 1 => some 54000
  | 2 => some 540000
  | _ => none

/-- The messages of a mailbox whose bound has passed are receivable. -/
def Mailbox.afterClock (now : Nat) (b : Mailbox) : Mailbox :=
  match classBound b.cls with
  | none => b
  | some n => { b with msgs := b.msgs.map (fun m => { m with receivable := m.receivable || decide (m.since + n ≤ now) }) }

/-- One nominal core clock passes; fragments that it makes due are promoted (R110). -/
def State.passClock (s : State) : State :=
  let s := s.tick.promoteAll
  { s with mboxes := s.mboxes.map (Mailbox.afterClock s.ticks) }

/-! ### The events that may be due -/

/-- An event: what the device's state becomes. An event that is not due leaves the state as it is. -/
abbrev Event := State → Host.Outcome State Fault Refusal

def State.sampleEvents (s : State) : List Event :=
  if s.parts.toList.any (fun p => p.smpcfg.getLsbD 31) then (List.range 48).map execSampleTick else []

/-- A link's events: its training, and the permits that its receivers return. -/
def linkEvents (n : Nat) (l : Link) : List Event :=
  if l.state = .training then [execLinkTrainingDone n true]
  else if l.carries = false ∨ (l.permits = permitTable n ∧ l.far = permitTable n) then []
  else (List.range 4).map (execPermitReturn n)

/-- Store buffers, release tags, flows, links, lines that the host holds, and mailboxes. -/
def State.memoryEvents (s : State) : List Event :=
  (distinct (s.sbuf.map StoreEntry.core)).map execStoreBufferTimeout ++
    s.tags.flatMap (fun t => [execPromotionDrainRequest t.line, execPromotionDrainReply t.line]) ++
    (s.flows.filter (fun f => !f.held.isEmpty)).flatMap (fun f => [execFlowMessageArrival f.id, execFlowAcknowledgement f.id]) ++
    (List.range 14).flatMap (fun n => (s.links[n]?).elim [] (linkEvents n)) ++
    s.hostHeld.map execBackInvalidateResponse ++
    (s.mboxes.filter (fun b => b.msgs.any (fun m => !m.receivable))).map (fun b => execMessageReceivable b.m)

/-- Engines and copy units. -/
def State.unitEvents (s : State) : List Event :=
  (distinct (s.engines.flatMap (fun o => o.members.map Prod.fst))).map execTileOpComplete ++
    (distinct (s.copies.filterMap (fun c => c.lines[c.owned]?))).map execCopyOwnershipGrant ++
    (distinct (s.copies.map Copy.core)).map execCopyStart ++
    (s.copies.filter Copy.running).map (fun c => execCopyComplete c.core c.uid)

/-- The event that a waiting fragment waits for. -/
def fragEvents (w : Warp) (f : Frag) : List Event :=
  match f.wait with
  | .none => if 64 ≤ f.readyFor then [execFragmentPromotion w.uid f.id] else []
  | .sleep _ => [execSleepExpire w.uid f.id]
  | .signal .. => [execSigwaitPoll w.uid f.id]
  | .remote .. => [execLineRequestComplete w.core w.uid f.id, execRemoteWaitThreshold w.uid f.id]
  | .line _ => [execLineRequestComplete w.core w.uid f.id]
  | .snoop _ => [execLineRequestComplete w.core w.uid f.id]
  | .promotion _ => [execLineRequestComplete w.core w.uid f.id]
  | _ => []

/-- Fragments, remote requests, format updates and register claims. -/
def State.warpEvents (s : State) : List Event :=
  s.remotes.map (fun r => execLineRequestComplete r.core r.frag.warp r.frag.frag) ++
    s.warps.flatMap (fun w => w.frags.flatMap (fragEvents w)) ++
    s.ctxs.flatMap (fun c => c.updating.map (fun u => execFormatUpdateComplete c.part c.slot u.n)) ++
    (distinct ((s.warps.filter (fun w => w.frags.any (fun f => match f.wait with | .claim .. => true | _ => false))).map Warp.core)).map
      execRegisterArbiter

/-- A group's own events. -/
def groupEvents (g : Group) : List Event :=
  match g.state with
  | .retiring => [execGroupRetire g.uid]
  | .evicting => [execPhaseRecordComplete g.uid]
  | .resumed => [execGroupRestore g.uid]
  | .evicted => [execEvthAfterEviction g.uid, execHung g.uid]
  | .pending => []
  | _ =>
    [execEviction g.uid, execPreemptLate g.uid, execHung g.uid] ++
      ([RoleCode.copy, .maths, .epilogue].filter (fun r => g.pend.getD (roleNat r) 0 != 0)).map (execAttachServed g.uid)

/-- The reads of a context's queues, and then what their ready packets do. -/
def readEvents (c : Ctx) : List Event :=
  (c.queues.filter (fun q => q.shooting.isSome)).map (fun q => execShootdownComplete c.part c.slot q.n) ++
  (c.queues.filter (fun q => q.en)).flatMap (fun q =>
    [execPacketRead c.part c.slot q.n, execDependencePoll c.part c.slot q.n])

def ctxEvents (c : Ctx) : List Event :=
  (c.queues.filter (fun q => q.en)).flatMap (fun q =>
    [execPacketBarrier c.part c.slot q.n, execSignal c.part c.slot q.n, execShootdown c.part c.slot q.n,
      execLaunch c.part c.slot q.n]) ++
    (if c.saving then [execSaveComplete c.part c.slot] else []) ++
    (if c.state = .destroying then [execDestroyComplete c.part c.slot] else []) ++
    (if c.heldFaults.isEmpty && c.heldRequests.isEmpty && c.adds.isEmpty then [] else [execHeldRecordRetry c.part c.slot])

/-- Groups, grids, contexts, placement and clocks. -/
def State.headboxEvents (s : State) : List Event :=
  s.groups.flatMap groupEvents ++ (s.grids.filter (fun g => g.state == .closing)).map (fun g => execGridComplete g.uid) ++
    s.ctxs.flatMap readEvents ++ s.ctxs.flatMap ctxEvents ++ (distinct ((s.groups.filter (fun g => !g.resident)).map Group.part)).map execPlacementAttempt ++
    ((List.range 6).filter s.mayRaise).map execClockRaise

/-- Every event that may be due. -/
def State.events (s : State) : List Event :=
  s.sampleEvents ++ s.memoryEvents ++ s.unitEvents ++ s.warpEvents ++ s.headboxEvents

/-- The first event of a list that changes the state. -/
def firstDue : List Event → State → Option (Host.Outcome State Fault Refusal)
  | [], _ => none
  | e :: es, s =>
    match e s with
    | .next s' => if s' = s then firstDue es s else some (.next s')
    | o => some o

/-- The first internal event that is due, performed. -/
def State.internal (s : State) : Option (Host.Outcome State Fault Refusal) := firstDue s.events s

end Sys2Proof.Machine
end

