-- ==== Sys2Proof/Machine/Load.lean ====
section
/-! DEFINITION. A machine in which one given word is the next to issue: what a driver's CREATE, kernel commit and launch
would have set up (log entry 9). The spec's programs come to run only that way. -/

namespace Sys2Proof.Machine

/-- The role that may issue a word: its instruction's, or epilogue. -/
def roleFor (w : Word) : Role :=
  match Sys2Proof.decode w with
  | .ok i => ((shape i).role).getD .epilogue
  | .error _ => .epilogue

/-- The grid, group and context of the word's warp: partition 0, slot 0, one group on core 0 with a vat split that has
every kind of storage. -/
def wordKernel : KernelDesc := { KernelDesc.empty with rf := 8, sp := 1, ts := 1, warps := [(0, 8), (0, 8), (0, 64)] }

def wordGrid : Grid :=
  { uid := 0, part := 0, ctx := 0, queue := 0, packet := 0, gridn := 0, kid := 0, code := 0, gen := 0, mode := .interlocked,
    kd := wordKernel, x := 1, y := 1, z := 1, args := [], handler := false, prio := 0, done := 0, dadd := 0,
    localDone := false, installing := [], state := .running, next := 1, retired := 0, since := 0,
    killed := [] }

def wordGroup : Group :=
  { uid := 0, grid := 0, part := 0, ctx := 0, gx := 0, gy := 0, gz := 0, linear := 0, state := .running,
    places := [{ core := 0, granules := 8, spad := [], tiles := [] }], pend := [0, 0, 0], evct := 0,
    roles := Vector.replicate 16 0, broken := 0, placedAt := 0, waitingAt := 0, unplacedAt := 0, resumable := none,
    evictedAt := 0, preempt := [], hungRaised := false, hungSince := none, saved := none, savedWarps := [], savedPool := [],
    savedWaits := [], kills := [], storesAt := [], doomed := false }

/-- The virtual and physical address of the word: 1 MiB, under one 1 GiB leaf that maps address 0 to device byte 0. -/
def wordAt : Nat := 0x100000

/-- The context of the word's warp, its page table rooted at 0x1000. -/
def wordCtx : Ctx := { Ctx.created 0 0 0 with state := .active, ptroot := 0x1000 }

/-- An access-table entry for every access of partition 0 to device memory (R392). -/
def wordAcc (target : Nat) : AccEntry :=
  { target := target, entry := 0, word := BitVec.ofNat 128 (0x5FFFFFF * 2 ^ 72 + 0x8027) }

/-- The state with the word placed where the next step fetches. -/
def State.withWord (s : State) (w : Word) : State :=
  let role := roleFor w
  let warp := { Warp.fresh 0 0 role 0 0 0 0 .interlocked 0 8 (BitVec.ofNat 64 wordAt) with started := true }
  let mem := memSetNat s.mem 0x1000 8 0x2001
  let mem := memSetNat mem 0x2000 8 0x3001
  let mem := memSetNat mem 0x3000 8 0x1D
  { s with
    mem := memSetNat mem wordAt 4 w.toNat
    acc := (List.range 32).map wordAcc ++ (List.range 4).map (fun i => wordAcc (64 + i))
    tlb := []
    ctxs := [wordCtx]
    grids := [wordGrid]
    groups := [wordGroup]
    warps := [warp]
    portBusy := []
    agenda := [.issue 0 warp.port] }

end Sys2Proof.Machine
end

