-- ==== Sys2Proof/Machine/Step.lean ====
section
/-! DEFINITION. One step: the next turn of the agenda, or by default an issue, an event that is due, or a clock. -/

namespace Sys2Proof.Machine

/-- After a turn, waits end, groups follow their warps (R366) and no fragment issues. -/
def closeTurn : Host.Outcome State Fault Refusal → Host.Outcome State Fault Refusal
  | .next s => .next { s.settled with cur := none }
  | o => o

/-- A fragment that its port has chosen issues its next word. -/
def issueWord (s : State) (r : FragRef) : Host.Outcome State Fault Refusal :=
  let s := (s.passOver r).issuing r
  exec s.nextInstr s.fetched

/-- An instruction that issued and whose wait is over goes on with its operands (R122). -/
def finishInstr (s : State) (r : FragRef) : Host.Outcome State Fault Refusal :=
  match s.goesOn r with
  | some i => exec i { s with cur := some r }
  | none => .next s

/-- One turn. -/
def takeTurn (t : Turn) (s : State) : Host.Outcome State Fault Refusal :=
  match t with
  | .event i => if i.isEvent then exec i { s with cur := none } else .next s
  | .finish warp frag => finishInstr s { warp := warp, frag := frag }
  | .issue core port =>
    match s.chosen core port with
    | some r => issueWord s r
    | none => .next s
  | .clock => .next s.passClock
  | .drain core => .next (s.drainOldest core)
  | .cache part slot va level => .next (s.cacheEntry part slot va level)
  | .uncache part slot va => .next (s.uncache part slot va)
  | .evictLine line => .next (s.evictLine line)
  | .peer n addr op => .next (s.peerAccess n addr op)
  | .retry link => .next (s.retryLink link)
  | .allocate first last part slot => .next (s.allocate first last part slot)
  | .cap w => .next (s.setPowerCap w)
  | .replica part slot core n => .next (s.spreadFormat part slot core n)
  | .future n => .next { s with prefer := some n }
  | .zeroWeights => .next { s with weights := Vector.replicate 6 0 }

/-- The turn that the model takes when none is asked for: an instruction that goes on after its wait, else an issue, else an event
that is due, else a clock (log entry 1). -/
def defaultTurn (s : State) : Host.Outcome State Fault Refusal :=
  match s.finishing with
  | some r => finishInstr s r
  | none =>
    match s.firstIssue with
    | some r => issueWord s r
    | none =>
      match s.internal with
      | some o => o
      | none => .next s.passClock

/-- One step of the device. Every step takes a new draw of free values. -/
def step (s : State) : Host.Outcome State Fault Refusal :=
  match s.agenda with
  | t :: ts => closeTurn (takeTurn t { s with agenda := ts, draws := s.draws + 1 })
  | [] => closeTurn (defaultTurn { s with draws := s.draws + 1 })

/-- The state with an instruction's word stored where `step` fetches next, and everything that its issue takes (log
entry 9). Every instruction is one 32-bit word (R35). -/
def State.withFetchWord (s : State) (_nbits w : Nat) : State := s.withWord (BitVec.ofNat 32 w)

end Sys2Proof.Machine
end

