-- ==== Sys2Proof/Safety.lean ====
section
/-! DEFINITION. What counts as a safe run, and the terms in which claims speak of one instruction: it begins, it completes, it takes
an exception, it waits. -/

namespace Sys2Proof.Machine

/-- `k` steps from `s` reach a state: the run neither stops with a fault nor is refused. -/
def Runs (s : State) (k : Nat) : Prop := ∃ t, core.run k s = .next t

/-- The fragment that issues in `s` may execute `i`: it passes the checks of R39, its scheduling mode lets it read its registers
(R52, R61), and its vector registers are ready and have room (R122, R142, R146). `J` is the issue: the state, and the registers and
hints as `i` reads them. -/
def Begins (i : Instr) (s : State) (J : Issue) : Prop := ∃ I, s.issuer = some I ∧ (I.over i).begin i = .ok J

/-- `i` executes in `s`: the next state is that of its own effect `d`, retired (R51 to R54, R62). -/
def Completes (i : Instr) (s : State) (J : Issue) (d : Done) : Prop := exec i s = .next (J.retire i d)

/-- The issue `J`, as far as it came, over the state in which `i` began in `s`: what a stop of `i` starts from. -/
def Stops (i : Instr) (s : State) (J K : Issue) : Prop := ∃ I, s.issuer = some I ∧ K = { J with st := (I.over i).st }

/-- `i` raises `t` in `s`: the next state is the exception's entry (R167, R401), and nothing else of `i` takes effect. -/
def TakesException (i : Instr) (s : State) (J : Issue) (t : Trap) : Prop :=
  ∃ K, Stops i s J K ∧ exec i s = .next (K.leaving (K.st.raise K.ref t))

/-- `i` raises `t` in `s` after effects that stay: the exception's entry is from a state `u` (R136, R138). -/
def TakesExceptionFrom (i : Instr) (s : State) (J : Issue) (u : State) (t : Trap) : Prop :=
  ∃ K, Stops i s J K ∧ exec i s = .next (K.leaving (u.raise K.ref t))

/-- `i` does not complete in `s`: from a state `s'` its fragment waits (R168, R376). -/
def Waits (i : Instr) (s : State) (J : Issue) (s' : State) (w : Wait) : Prop :=
  ∃ K, Stops i s J K ∧ exec i s = .next (K.waiting i s' w)

end Sys2Proof.Machine
end

