-- ==== Sys2Proof/Certificates/Slice0/Obligations.lean ====
section
/-! DEFINITION. The statements for the provers: the rules of spec/ as propositions about the model. In each, `Begins i s J` says that the
fragment that issues in `s` may execute `i`, with `J` the issue after the checks of R39 and the waits for registers; `Completes`,
`TakesException` and `Waits` are the three ends of an instruction (Sys2Proof/Safety.lean). -/

section

open Sys2Proof Sys2Proof.Machine

/-! ### Class 0x0 (R151 to R155) -/

namespace Sys2Proof.Machine

/-- R152 to R154 for the two-operand forms of format S: the result of `a`, `b` and the old destination, exact and then modulo
2^32. -/
def scalarTable : List ((BitVec 6 → BitVec 6 → BitVec 6 → BitVec 1 → Instr) × (Word → Word → Word → Word)) :=
  [(.sadd, fun a b _ => BitVec.ofNat 32 (a.toNat + b.toNat)),
   (.ssub, fun a b _ => BitVec.ofInt 32 (a.toInt - b.toInt)),
   (.smul, fun a b _ => BitVec.ofNat 32 (a.toNat * b.toNat)),
   (.smulhi, fun a b _ => BitVec.ofInt 32 (a.toInt * b.toInt / 4294967296)),
   (.smulhu, fun a b _ => BitVec.ofNat 32 (a.toNat * b.toNat / 4294967296)),
   (.smad, fun a b d => BitVec.ofNat 32 (d.toNat + a.toNat * b.toNat)),
   (.sdiv, fun a b _ =>
      if b = 0 then 0xFFFFFFFF
      else if a = 0x80000000 ∧ b = 0xFFFFFFFF then 0x80000000
      else BitVec.ofInt 32 (a.toInt.tdiv b.toInt)),
   (.sdivu, fun a b _ => if b = 0 then 0xFFFFFFFF else BitVec.ofNat 32 (a.toNat / b.toNat)),
   (.srem, fun a b _ =>
      if b = 0 then a
      else if a = 0x80000000 ∧ b = 0xFFFFFFFF then 0
      else BitVec.ofInt 32 (a.toInt - b.toInt * a.toInt.tdiv b.toInt)),
   (.sremu, fun a b _ => if b = 0 then a else BitVec.ofNat 32 (a.toNat - b.toNat * (a.toNat / b.toNat))),
   (.sand, fun a b _ => a &&& b),
   (.sor, fun a b _ => a ||| b),
   (.sxor, fun a b _ => a ^^^ b),
   (.sandn, fun a b _ => a &&& ~~~b),
   (.sshl, fun a b _ => BitVec.ofNat 32 (a.toNat * 2 ^ (b.toNat % 32))),
   (.sshr, fun a b _ => BitVec.ofNat 32 (a.toNat / 2 ^ (b.toNat % 32))),
   (.ssra, fun a b _ => BitVec.ofInt 32 (a.toInt / 2 ^ (b.toNat % 32))),
   (.srol, fun a b _ => BitVec.ofNat 32 (a.toNat * 2 ^ (b.toNat % 32) + a.toNat / 2 ^ (32 - b.toNat % 32))),
   (.smin, fun a b _ => if a.toInt ≤ b.toInt then a else b),
   (.smax, fun a b _ => if a.toInt ≤ b.toInt then b else a),
   (.sminu, fun a b _ => if a.toNat ≤ b.toNat then a else b),
   (.smaxu, fun a b _ => if a.toNat ≤ b.toNat then b else a),
   (.sbfe, fun a b _ =>
      let len : Nat := min (b.toNat / 2 ^ 8 % 64) 32
      let f : Nat := a.toNat / 2 ^ (b.toNat % 32) % 2 ^ len
      if b.getLsbD 16 = true ∧ 0 < len ∧ 2 ^ (len - 1) ≤ f then BitVec.ofInt 32 ((f : Int) - 2 ^ len) else BitVec.ofNat 32 f),
   (.sbfi, fun a b d =>
      let len : Nat := min (b.toNat / 2 ^ 8 % 64) 32
      let mask := BitVec.ofNat 32 ((2 ^ len - 1) * 2 ^ (b.toNat % 32))
      (d &&& ~~~mask) ||| (BitVec.ofNat 32 (a.toNat * 2 ^ (b.toNat % 32)) &&& mask))]

end Sys2Proof.Machine

/-- R152 to R154: every two-operand form of class 0x0 completes with the exact result, stored modulo 2^32.

R154, R62: a word of class 0x0 that encodes one of the four division forms is scoreboarded, and every other has latency 2.

R152: the forms of class 0x0 with a carry, a condition, one operand or an immediate complete with the effect of the table.

R155: the pair forms act modulo 2^64; an immediate is sign-extended for sums, and gives the low six bits of a count. -/
def Obligations.ScalarResults : Prop :=
  (∀ r ∈ scalarTable, ∀ (s : State) (J : Issue) (d a b : BitVec 6) (ib : BitVec 1), Begins (r.1 d a b ib) s J →
     Completes (r.1 d a b ib) s J (J.doneS d (r.2 (J.sv a) (J.sb b ib) (J.sv d)))) ∧
  (∀ (i : Instr) (w : Word), Sys2Proof.encode i = some w → w.toNat / 2 ^ 28 = 0 →
     (shape i).latency = if w.toNat / 2 ^ 22 ∈ [8, 9, 10, 11] then 0 else 2) ∧
  (∀ (s : State) (J : Issue) (d a b : BitVec 6) (ib : BitVec 1) (c : BitVec 3) (cc : BitVec 4) (n : BitVec 16),
     (Begins (.saddc d a b ib c) s J →
       let t := (J.sv a).toNat + (J.sb b ib).toNat + (J.view.getC c.toNat).toNat
       Completes (.saddc d a b ib c) s J
         { st := J.put ((J.warp.setS d.toNat (BitVec.ofNat 32 t)).setC c.toNat (decide (2 ^ 32 ≤ t))) }) ∧
     (Begins (.ssubb d a b ib c) s J →
       Completes (.ssubb d a b ib c) s J
         { st := J.put ((J.warp.setS d.toNat (J.sv a - J.sb b ib - BitVec.ofNat 32 (J.view.getC c.toNat).toNat)).setC c.toNat
             (decide ((J.sv a).toNat < (J.sb b ib).toNat + (J.view.getC c.toNat).toNat))) }) ∧
     (Begins (.scmp c cc a b ib) s J →
       Completes (.scmp c cc a b ib) s J { st := J.put (J.warp.setC c.toNat (intCond cc.toNat (J.sv a) (J.sb b ib))) }) ∧
     (Begins (.ssel d a b ib c) s J →
       Completes (.ssel d a b ib c) s J (J.doneS d (if J.view.getC c.toNat then J.sv a else J.sb b ib))) ∧
     (Begins (.smov d a) s J → Completes (.smov d a) s J (J.doneS d (J.sv a))) ∧
     (Begins (.smovi d n) s J → Completes (.smovi d n) s J (J.doneS d (J.h.imm.getD (n.signExtend 32)))) ∧
     (Begins (.smovhi d n) s J →
       Completes (.smovhi d n) s J
         (J.doneS d (BitVec.ofNat 32 ((J.h.imm.getD (n.setWidth 32)).toNat % 2 ^ 16 * 2 ^ 16 + (J.sv d).toNat % 2 ^ 16)))) ∧
     (Begins (.sclz d a) s J →
       ∃ z, Completes (.sclz d a) s J (J.doneS d (BitVec.ofNat 32 z)) ∧ z ≤ 32 ∧ (J.sv a).toNat < 2 ^ (32 - z) ∧
         (z < 32 → 2 ^ (31 - z) ≤ (J.sv a).toNat)) ∧
     (Begins (.spopc d a) s J →
       Completes (.spopc d a) s J (J.doneS d (BitVec.ofNat 32 ((List.range 32).countP (J.sv a).getLsbD))))) ∧
  (∀ (s : State) (J : Issue) (d a b : BitVec 6) (ib : BitVec 1),
     (Begins (.sadd64 d a b ib) s J →
       Completes (.sadd64 d a b ib) s J (J.doneP d (BitVec.ofNat 64 ((J.pv a).toNat + (J.pb b ib).toNat)))) ∧
     (Begins (.ssub64 d a b ib) s J →
       Completes (.ssub64 d a b ib) s J (J.doneP d (BitVec.ofInt 64 ((J.pv a).toInt - (J.pb b ib).toInt)))) ∧
     (Begins (.sshl64 d a b ib) s J →
       Completes (.sshl64 d a b ib) s J (J.doneP d (BitVec.ofNat 64 ((J.pv a).toNat * 2 ^ ((J.sb b ib).toNat % 64))))) ∧
     (Begins (.sshr64 d a b ib) s J →
       Completes (.sshr64 d a b ib) s J (J.doneP d (BitVec.ofNat 64 ((J.pv a).toNat / 2 ^ ((J.sb b ib).toNat % 64))))))

/-- R114: a scalar, a pair, a condition bit and a mask register read back the value written, `k0` reads all ones whatever is
written, and a write of one register changes no other.

R2, R114: what a scalar, pair, condition or mask result leaves in the next state. The destination holds the value when the
issuer's warp is read again, every other register, all memory and every other object are as before, and `k0` is not written.
(The issue's own bookkeeping, R51 to R54 and R62, is the fragment, the results in flight, freed names and the port.)

R113: of the registers, and of the bits of mask registers, that an instruction issued later has written while this one waited, none is
written. -/
def Obligations.RegistersAndFrame : Prop :=
  (∀ (w : Warp) (n m : Nat) (x : Word) (y : Dword) (b : Bool),
     (n < 64 → (w.setS n x).getS m = if m = n then x else w.getS m) ∧
     (n < 63 → (w.setPair n y).getPair n = y) ∧
     (n < 63 → m ≠ n → m ≠ n + 1 → (w.setPair n y).getS m = w.getS m) ∧
     (n < 8 → (w.setC n b).getC m = if m = n then b else w.getC m) ∧
     (n < 8 → (w.setK n x).getK m = if m = 0 then 0xFFFFFFFF else if m = n then x else w.getK m)) ∧
  (∀ (J : Issue) (i : Instr) (d : Done) (w : Warp),
     J.st.warp? J.ref.warp = some J.warp → J.warp.uid = J.ref.warp →
     (∃ n x, n < 64 ∧ w = J.warp.setS n x) ∨ (∃ n x, n < 64 ∧ n % 2 = 0 ∧ w = J.warp.setPair n x) ∨
       (∃ n x, n < 8 ∧ w = J.warp.setC n x) ∨ (∃ n x, n < 8 ∧ w = J.warp.setK n x) →
     d.st = J.put w →
     let lost := (J.frag.latch.map Latch.lost).getD []
     ∃ w', (J.retire i d).warp? J.ref.warp = some w' ∧
       (∀ n < 64, w'.getS n = if lost.any (fun r => r.1 == .s n) then J.warp.getS n else w.getS n) ∧
       (∀ n < 8, w'.getC n = if lost.any (fun r => r.1 == .c n) then J.warp.getC n else w.getC n) ∧
       (∀ n < 8, ∀ L < 32, (w'.getK n).getLsbD L =
         if lost.any (fun r => r.1 == .k n && r.2.getLsbD L) then (J.warp.getK n).getLsbD L else (w.getK n).getLsbD L) ∧
       (lost = [] → w'.s = w.s ∧ w'.c = w.c ∧ w'.k = w.k) ∧ w'.d = w.d ∧ w'.slots = w.slots ∧ w'.budget = w.budget ∧
       w'.fpflags = w.fpflags ∧ w'.srctr = w.srctr ∧ w'.mark = w.mark ∧ w'.wpar = w.wpar ∧ w'.la = w.la ∧ w'.locks = w.locks ∧
       (J.retire i d).mem = J.st.mem ∧ (J.retire i d).groups = J.st.groups ∧ (J.retire i d).grids = J.st.grids ∧
       (J.retire i d).ctxs = J.st.ctxs ∧ (J.retire i d).sbuf = J.st.sbuf ∧ (J.retire i d).kernels = J.st.kernels ∧
       (J.retire i d).mboxes = J.st.mboxes ∧ (J.retire i d).engines = J.st.engines ∧ (J.retire i d).copies = J.st.copies ∧
       ∀ u, u ≠ J.ref.warp → (J.retire i d).warp? u = J.st.warp? u)

/-! ### Class 0x1: special registers, records and scalar memory (R156, R157, R207 to R217, R246, R264, R432) -/

namespace Sys2Proof.Machine

/-- R115, R156: the special registers, by number. Numbers past 19 name none. -/
def specialTable : List (BitVec 16 × (Issue → Word)) :=
  let epi := fun (J : Issue) (x : Word) => if J.warp.role = .epilogue then x else 0
  [(0, fun J => match J.warp.role with | .copy => 0 | .maths => 1 | .epilogue => 2),
   (1, fun J => BitVec.ofNat 32 J.warp.slot), (2, fun J => BitVec.ofNat 32 J.warp.index),
   (3, fun J => J.group.gx), (4, fun J => J.group.gy), (5, fun J => J.group.gz),
   (6, fun J => BitVec.ofNat 32 J.grid.x), (7, fun J => BitVec.ofNat 32 J.grid.y), (8, fun J => BitVec.ofNat 32 J.grid.z),
   (9, fun J => BitVec.ofNat 32 J.warp.core), (10, fun J => BitVec.ofNat 32 (J.warp.core / 8)),
   (11, fun J => BitVec.ofNat 32 (J.warp.core / 24)), (12, fun J => BitVec.ofNat 32 J.warp.pos),
   (13, fun J => BitVec.ofNat 32 J.group.places.length), (14, fun J => J.ctx.ctxid),
   (15, fun J => epi J (BitVec.ofNat 32 J.warp.budget)), (16, fun J => epi J (J.warp.fpflags.setWidth 32)),
   (17, fun J => epi J J.warp.srctr), (18, fun J => epi J (BitVec.ofNat 32 (J.frag.record.getD 0))),
   (19, fun J => match J.warp.mode with | .trusting => 0 | .checking => 1 | .interlocked => 2)]

end Sys2Proof.Machine

/-- R207 to R209, R214: `DMAKE` writes the record of four scalars, `DSET` the record with one field changed and `DGET` the four
words of a record. A record that would not be well-formed is not written by `DMAKE`, `DSET` or `DLOAD`: each raises `BOUNDS` with
detail 0xFFFFFFFF, and an advance by more elements than the record has raises it with their number.

R208, R214 for each field of `DSET`: base, extent, stride, element size, swizzle, attributes, and the advance by whole
elements; a value that its field cannot hold gives no record.

R210, R211: the checks of one lane, in their order, and the address of an element. -/
def Obligations.BufferRecords : Prop :=
  (∀ (s : State) (J : Issue) (a : BitVec 6) (n : BitVec 4) (o : BitVec 3),
     (Begins (.dmake a n) s J → bufMalformed (J.quad a) = false →
       Completes (.dmake a n) s J { st := J.put (J.warp.setD n.toNat (J.quad a)) }) ∧
     (∀ b, Begins (.dset a n o) s J →
       (Buf.of (J.view.getD n.toNat)).setField o.toNat (J.sv a) (J.pv a) = some b → bufMalformed b.word = false →
       (o = 6#3 → (J.sv a).toNat ≤ (Buf.of (J.view.getD n.toNat)).ext) →
       Completes (.dset a n o) s J { st := J.put (J.warp.setD n.toNat b.word) }) ∧
     (Begins (.dget a n) s J →
       Completes (.dget a n) s J { st := J.put ((J.warp.setPair a.toNat ((J.view.getD n.toNat).extractLsb' 0 64)).setPair (a.toNat + 2)
         ((J.view.getD n.toNat).extractLsb' 64 64)) }) ∧
     (Begins (.dmake a n) s J → bufMalformed (J.quad a) = true →
       TakesException (.dmake a n) s J { code := .bounds, detail := 0xFFFFFFFF }) ∧
     (let old := Buf.of (J.view.getD n.toNat)
      let beyond := o = 6#3 ∧ old.swz ≠ 3 ∧ old.ext < (J.sv a).toNat
      (Begins (.dset a n o) s J → beyond → TakesException (.dset a n o) s J { code := .bounds, detail := J.sv a }) ∧
      (Begins (.dset a n o) s J → ¬ beyond →
        (∀ b, old.setField o.toNat (J.sv a) (J.pv a) = some b → bufMalformed b.word = true) →
        TakesException (.dset a n o) s J { code := .bounds, detail := 0xFFFFFFFF })) ∧
     (∀ (i : BitVec 6) (m : BitVec 4) (s₁ : State),
       let ls := J.resolve m 16 false [(0, (J.sv i).toNat)]
       Begins (.dload m i n) s J →
       J.st.settle J.agent ls { core := J.warp.core, scope := 0, promotes := false } false true = .ok s₁ →
       bufMalformed (BitVec.ofNat 128 (laneNat (s₁.loadLanes J.agent 16 ls) 0)) = true →
       TakesException (.dload m i n) s J { code := .bounds, detail := 0xFFFFFFFF })) ∧
  (∀ (b : Buf) (x : Word) (p : Dword),
     b.setField 0 x p = (if p.toNat < 2 ^ 57 then some { b with base := p.toNat } else none) ∧
     b.setField 1 x p = some { b with ext := x.toNat } ∧
     b.setField 2 x p = (if x.toNat < 2 ^ 24 then some { b with str := x.toNat } else none) ∧
     b.setField 3 x p = (if x.toNat ≤ 5 then some { b with esz := x.toNat } else none) ∧
     b.setField 4 x p = (if x.toNat ≤ 3 then some { b with swz := x.toNat } else none) ∧
     b.setField 5 x p = (if x.toNat < 8 then
       some { b with clmp := decide (4 ≤ x.toNat), imm := decide (2 ≤ x.toNat % 4), ro := decide (x.toNat % 2 = 1) } else none) ∧
     b.setField 6 x p = (if b.swz = 3 then none
       else some { b with base := (b.base + x.toNat * (if b.str = 0 then 2 ^ b.esz else b.str)) % 2 ^ 57, ext := b.ext - x.toNat })) ∧
  (∀ (b : Buf) (z i : Nat) (write : Bool),
     let va := b.addr i
     (2 ^ b.esz < z → b.check z i write = .bounds) ∧
     (z ≤ 2 ^ b.esz → b.ext ≤ i → b.clmp = false → b.check z i write = .bounds) ∧
     (z ≤ 2 ^ b.esz → b.ext ≤ i → b.clmp = true → b.check z i write = .clamped) ∧
     (z ≤ 2 ^ b.esz → i < b.ext → va % z ≠ 0 → b.check z i write = .align va) ∧
     (z ≤ 2 ^ b.esz → i < b.ext → va % z = 0 → write = true → b.ro = true ∨ b.imm = true → b.check z i write = .readOnly va) ∧
     (z ≤ 2 ^ b.esz → i < b.ext → va % z = 0 → write = false ∨ (b.ro = false ∧ b.imm = false) → b.check z i write = .want va) ∧
     (b.swz = 0 → va = (b.base + i * (if b.str = 0 then 2 ^ b.esz else b.str)) % 2 ^ 57))

/-- R215: a scalar load whose one lane resolves completes with the bytes that the core sees, extended by the size code; `DLOAD`
with a record.

R215 to R217: a scalar store whose lane resolves stores its bytes, and a scalar atomic on device memory performs at once and
gives the old value.
The model's own choices that it rests on: log entry 34. -/
def Obligations.ScalarMemory : Prop :=
  (∀ (s s₁ : State) (J : Issue) (d i : BitVec 6) (m n : BitVec 4) (z : BitVec 3),
     (let ls := J.resolve n (sizeBytes z.toNat) false [(0, (J.sv i).toNat)]
      let x := laneNat (s₁.loadLanes J.agent (sizeBytes z.toNat) ls) 0
      Begins (.sld d i n z) s J → J.st.settle J.agent ls J.visitLoad false true = .ok s₁ →
       Completes (.sld d i n z) s J
         { st := s₁.setWarp (if z = 5#3 then (J.at s₁).warp.setPair d.toNat (BitVec.ofNat 64 x)
             else (J.at s₁).warp.setS d.toNat (BitVec.ofNat 32 (extendSize z.toNat x))) }) ∧
     (let ls := J.resolve m 16 false [(0, (J.sv i).toNat)]
      let r := BitVec.ofNat 128 (laneNat (s₁.loadLanes J.agent 16 ls) 0)
      Begins (.dload m i n) s J →
       J.st.settle J.agent ls { core := J.warp.core, scope := 0, promotes := false } false true = .ok s₁ → bufMalformed r = false →
       Completes (.dload m i n) s J { st := (J.at s₁).put ((J.at s₁).warp.setD n.toNat r) })) ∧
  (∀ (s s₁ s₂ s₃ : State) (J : Issue) (a i : BitVec 6) (n : BitVec 4) (z o : BitVec 3),
     let ls := J.resolve n (sizeBytes z.toNat) true [(0, (J.sv i).toNat)]
     let req := fun (op : Nat) (b : Nat) (cmp : Option Nat) => (performLanes ls).map (fun p =>
       { lane := p.1, key := p.2.2, size := sizeBytes z.toNat, op := op, b := BitVec.ofNat 64 b,
         cmp := cmp.map (BitVec.ofNat 64), va := p.2.1 : AtomReq })
     (Begins (.sst a i n z) s J → J.st.settle J.agent ls J.visitStore true false = .ok s₁ →
       (if J.releases then J.release s₁ J.h.m.scope else .ok s₁) = .ok s₂ →
       Completes (.sst a i n z) s J
         { st := J.storeLanes s₂ (sizeBytes z.toNat) ls J.allLanes (fun _ => J.sized a.toNat z) }) ∧
     (J.st.settle J.agent ls J.visitAtomic true false = .ok s₁ →
      anyAway (dieOf J.warp.core) ((performLanes ls).map (fun p => p.2.2)) = false →
      (∀ reqs, Begins (.satom a i n z o) s J → reqs = req (satomOp o.toNat) (J.sized a.toNat z) none →
        J.release s₁ (J.atomicScope J.allLanes reqs) = .ok s₂ → s₂.atomicAfter J.warp.core reqs = .ok s₃ →
        let r := J.performAtomics s₃ J.allLanes reqs
        Completes (.satom a i n z o) s J
          { st := r.1.setWarp ((AtomDest.scalar a.toNat (z == 5#3)).write (J.at r.1).warp r.2) }) ∧
      (∀ reqs, Begins (.scas a i n z) s J →
        reqs = req 9 (J.sized (a.toNat + (if z = 5#3 then 2 else 1)) z) (some (J.sized a.toNat z)) →
        J.release s₁ (J.atomicScope J.allLanes reqs) = .ok s₂ → s₂.atomicAfter J.warp.core reqs = .ok s₃ →
        let r := J.performAtomics s₃ J.allLanes reqs
        Completes (.scas a i n z) s J
          { st := r.1.setWarp ((AtomDest.scalar a.toNat (z == 5#3)).write (J.at r.1).warp r.2) })))

/-- R115, R156: `SGET` writes the special register that its number names.

R157, R412, R408, R409: `SSETX` writes `%fpflags` or `%srctr` of an epilogue warp and nothing in the other roles, `SAMPM` the
mark of the warp, and `CLKR` and `FEATR` write what they read into their destinations.

R265, R256, R246, R432, R411: `FENCE` completes once its release has, and at a scope wider than core the stores of its core perform;
`PGREQ` on a resident page does nothing, `SLDK` gives a word of
the argument block, `CSRD` a state register and `CSWR` writes one.
The model's own choices that it rests on: log entry 8. -/
def Obligations.SpecialAndStateScalars : Prop :=
  (∀ r ∈ specialTable, ∀ (s : State) (J : Issue) (d : BitVec 6), Begins (.sget d r.1) s J →
     Completes (.sget d r.1) s J (J.doneS d (r.2 J))) ∧
  (∀ (s : State) (J : Issue) (d : BitVec 6) (n : BitVec 16) (e : BitVec 1) (f : BitVec 2),
     (Begins (.ssetx d 16#16) s J → J.warp.role = .epilogue →
       Completes (.ssetx d 16#16) s J { st := J.put { J.warp with fpflags := (J.sv d).setWidth 5 } }) ∧
     (Begins (.ssetx d 17#16) s J → J.warp.role = .epilogue →
       Completes (.ssetx d 17#16) s J { st := J.put { J.warp with srctr := J.sv d } }) ∧
     (Begins (.ssetx d n) s J → J.warp.role ≠ .epilogue → Completes (.ssetx d n) s J { st := J.st }) ∧
     (Begins (.sampm n) s J → Completes (.sampm n) s J { st := J.put { J.warp with mark := n, markOld := J.warp.mark, markAt := some J.now } }) ∧
     (Begins (.clkr d e) s J →
       Completes (.clkr d e) s J
         (J.doneP d (BitVec.ofNat 64 (if e = 0#1 then J.st.ticks * 10 / 27 else J.now)))) ∧
     (Begins (.featr d f) s J →
       Completes (.featr d f) s J (J.doneS d
         (match f.toNat with
           | 0 => lowHalf J.st.flatch
           | 1 => highHalf J.st.flatch
           | 2 => 0x00010300
           | _ => (J.st.firmware.running.map FirmwareImage.version).getD Config.firmwareVersion)))) ∧
  (∀ (s s₂ : State) (J : Issue) (a : BitVec 6) (w t : BitVec 1) (n : BitVec 16) (r : BitVec 8) (key : Nat),
     (Begins .fence s J → J.releases = false →
       Completes .fence s J { st := if J.h.m.scope = 0 then J.st else J.st.drainCore J.warp.core }) ∧
     (Begins .fence s J → J.releases = true →
       (if J.h.m.scope = 0 then J.releaseOwn J.st else J.release J.st J.h.m.scope) = .ok s₂ →
       Completes .fence s J { st := s₂.setWarp ((J.at s₂).warp.fence J.h.m.scope J.active) }) ∧
     (Begins (.pgreq a w t) s J →
       J.st.translateOnly J.agent.master J.ctx (if w = 1#1 then .write else .read) (vaMask (J.pv a).toNat) = .ok key →
       J.st.sendWalks J.agent (if w = 1#1 then .write else .read) [vaMask (J.pv a).toNat] = .ok s₂ →
       Completes (.pgreq a w t) s J
         { st := s₂.forget J.agent.master (if w = 1#1 then [(.write, vaMask (J.pv a).toNat)] else []) }) ∧
     (Begins (.sldk a n) s J → (J.h.imm.getD (n.setWidth 32)).toNat + 4 ≤ J.grid.kd.args →
       Completes (.sldk a n) s J
         (J.doneS a (BitVec.ofNat 32 (natLE ((J.grid.args.drop (J.h.imm.getD (n.setWidth 32)).toNat).take 4))))) ∧
     (Begins (.sldk a n) s J → J.grid.kd.args < (J.h.imm.getD (n.setWidth 32)).toNat + 4 →
       TakesException (.sldk a n) s J { code := .bounds, detail := J.h.imm.getD (n.setWidth 32) }) ∧
     (Begins (.csrd a r) s J → Completes (.csrd a r) s J (J.doneS a (J.ctx.csr r.toNat))) ∧
     (Begins (.cswr a r) s J → r ≠ 0x17#8 → r ≠ 0x1D#8 →
       Completes (.cswr a r) s J { st := J.st.writeCsr J.group.part J.group.ctx r.toNat (J.sv a) }) ∧
     (Begins (.cswr a r) s J → r = 0x17#8 ∨ r = 0x1D#8 → J.release J.st 4 = .ok s₂ →
       Completes (.cswr a r) s J { st := s₂.writeCsr J.group.part J.group.ctx r.toNat (J.sv a) }))

/-! ### Class 0x2: control (R42, R158 to R166) -/

/-- R42, R159, R160: which lanes a branch sends to its target. A branch that sends every active lane jumps, one that sends none
goes on, and a proper part `T` forms a new fragment at the target with the stacks of the issuer, whose other lanes go on at the
next word. -/
def Obligations.BranchesSendLanes : Prop :=
  ∀ (s : State) (J : Issue) (o : BitVec 22) (o' : BitVec 18) (c k : BitVec 3) (e : BitVec 1) (a : BitVec 6) (n : BitVec 16),
    let there : Dword := J.frag.pc + 4 * o'.signExtend 64
    let bits := if e = 1#1 then ~~~(J.view.getK k.toNat) else J.view.getK k.toNat
    let T := J.active &&& bits
    J.active ≠ 0 →
    (Begins (.bra o) s J → Completes (.bra o) s J { st := J.st, flow := .jump (J.frag.pc + 4 * o.signExtend 64) }) ∧
    (Begins (.brac c e o') s J → J.view.getC c.toNat = (e == 0#1) →
      Completes (.brac c e o') s J { st := J.st, flow := .jump there }) ∧
    (Begins (.brac c e o') s J → J.view.getC c.toNat = (e == 1#1) → Completes (.brac c e o') s J { st := J.st }) ∧
    (Begins (.brak k e o') s J → T = J.active → Completes (.brak k e o') s J { st := J.st, flow := .jump there }) ∧
    (Begins (.brak k e o') s J → T = 0 → Completes (.brak k e o') s J { st := J.st }) ∧
    (Begins (.brak k e o') s J → T ≠ 0 → T ≠ J.active →
      let new : Frag := { Frag.fresh J.warp.nextFrag J.warp.freeRecord T there with
        ret := J.frag.ret, conv := J.frag.conv, stallTill := J.stall }
      let w := J.warp.setFrag { J.frag with lanes := J.active &&& ~~~T }
      Completes (.brak k e o') s J
        { st := J.put { w with frags := w.frags ++ [new], nextFrag := w.nextFrag + 1 }, flow := .jump (J.frag.pc + 4) }) ∧
    (Begins (.braka k e o') s J → T = J.active → Completes (.braka k e o') s J { st := J.st, flow := .jump there }) ∧
    (Begins (.braka k e o') s J → T ≠ J.active → Completes (.braka k e o') s J { st := J.st }) ∧
    (Begins (.loop a n) s J → J.view.getS a.toNat ≠ 1 →
      Completes (.loop a n) s J
        { st := J.put (J.warp.setS a.toNat (J.view.getS a.toNat - 1)), flow := .jump (J.frag.pc + 4 * n.signExtend 64) }) ∧
    (Begins (.loop a n) s J → J.view.getS a.toNat = 1 → Completes (.loop a n) s J { st := J.put (J.warp.setS a.toNat 0) })

/-- R161: a call puts the next word on the return stack of 16 entries, `RET` takes the top entry, and an indirect jump goes to a
multiple of 4. A full stack raises `UD`, an index past the table `BOUNDS`, another target `ALIGN`.

R163 to R166: `CVSET` pushes an entry with the target, the active lanes and the depth of the return stack; `CVWAIT` whose
entry matches holds the fragment there and merges what is complete, any other goes on when no fragment is parked and waits behind
one otherwise; `EXIT`, and `RET` with an empty stack, end the active lanes as a release; `NOP` and `YIELD` go on.
The model's own choices that it rests on: log entries 65 and 70 (an entry of the indirect table that is not a multiple of 4). -/
def Obligations.CallsAndConvergence : Prop :=
  (∀ (s : State) (J : Issue) (o : BitVec 22) (a : BitVec 6) (n : BitVec 16),
     let i := (J.view.getS a.toNat + n.setWidth 32).toNat
     let entry := J.st.kernel? J.grid.part J.grid.kid
     let t := J.view.getPair a.toNat + 4 * n.signExtend 64
     (Begins (.call o) s J → J.frag.ret.length < 16 →
       Completes (.call o) s J
         { st := J.putFrag { J.frag with ret := (J.frag.pc + 4) :: J.frag.ret }, flow := .jump (J.frag.pc + 4 * o.signExtend 64) }) ∧
     (Begins (.call o) s J → J.frag.ret.length = 16 →
       ∃ w, Sys2Proof.encode (.call o) = some w ∧ TakesException (.call o) s J { code := .ud, detail := w }) ∧
     (∀ s' x, Begins (.calli a n) s J → J.frag.ret.length < 16 → i < (entry.map (fun k => k.kd.itabn)).getD J.grid.kd.itabn →
       J.readDword (((entry.map KernelEntry.itab).getD 0).toNat + 8 * i) = .ok (s', x) →
       Completes (.calli a n) s J
         { st := (J.at s').putFrag { (J.at s').frag with ret := ((J.at s').frag.pc + 4) :: (J.at s').frag.ret },
           flow := .jump (BitVec.ofNat 64 (x - x % 4)) }) ∧
     (Begins (.calli a n) s J → J.frag.ret.length < 16 → (entry.map (fun k => k.kd.itabn)).getD J.grid.kd.itabn ≤ i →
       TakesException (.calli a n) s J { code := .bounds, detail := BitVec.ofNat 32 i }) ∧
     (∀ pc rest, Begins .ret s J → J.frag.ret = pc :: rest →
       Completes .ret s J { st := J.putFrag { J.frag with ret := rest }, flow := .jump pc }) ∧
     (Begins (.jmpi a n) s J → t.toNat % 4 = 0 → Completes (.jmpi a n) s J { st := J.st, flow := .jump t }) ∧
     (Begins (.jmpi a n) s J → t.toNat % 4 ≠ 0 →
       TakesException (.jmpi a n) s J { code := .align, addr := t })) ∧
  (∀ (s s₂ : State) (J : Issue) (o : BitVec 22),
     let top : Option Conv := J.frag.conv.head?
     let hit := top.any (fun e => (e.p == J.frag.pc || e.p == J.frag.head) && e.d == J.frag.ret.length)
     (Begins (.cvset o) s J → J.frag.conv.length < 8 →
       Completes (.cvset o) s J
         { st := J.putFrag { J.frag with
             conv := { p := J.frag.pc + 4 * o.signExtend 64, m := J.active, d := J.frag.ret.length } :: J.frag.conv } }) ∧
     (Begins (.cvset o) s J → J.frag.conv.length = 8 →
       ∃ w, Sys2Proof.encode (.cvset o) = some w ∧ TakesException (.cvset o) s J { code := .ud, detail := w }) ∧
     (Begins .cvwait s J → hit = true →
       Completes .cvwait s J
         { st := J.put ((J.warp.setFrag { J.frag with
             wait := .held, record := none, chain := [], cover := [], yielded := J.yields, stallTill := J.stall,
             restTill := J.rest }).mergeAll.assignRecords), flow := .done }) ∧
     (Begins .cvwait s J → hit = false → J.warp.frags.any Frag.parked = false →
       Completes .cvwait s J { st := J.st, flow := .jump J.frag.skip }) ∧
     (Begins .cvwait s J → hit = false → J.warp.frags.any Frag.parked = true →
       Waits .cvwait s J J.st .behind) ∧
     (Begins .exit s J → J.release J.st J.group.scope = .ok s₂ →
       Completes .exit s J { st := s₂.endLanes J.ref.warp J.active, flow := .done }) ∧
     (Begins .ret s J → J.frag.ret = [] → J.release J.st J.group.scope = .ok s₂ →
       Completes .ret s J { st := s₂.endLanes J.ref.warp J.active, flow := .done }) ∧
     (Begins .nop s J → Completes .nop s J { st := J.st }) ∧
     (Begins .yield s J → Completes .yield s J { st := J.st, youngest := true }))

/-! ### Class 0x3: integer lanes (R116, R169 to R179) -/

namespace Sys2Proof.Machine

/-- R173: the instructions that act on each sub-element. How the operands are read, and the exact effect on `a`, `b` and the
sub-element of vd, at width `w`. -/
def laneTable : List ((BitVec 7 → BitVec 7 → BitVec 7 → BitVec 1 → Instr) × (HMod → Bool) × (Nat → Int → Int → Int → Int)) :=
  [(.vadd, fun h => h.sgn, fun _ a b _ => a + b),
   (.vavg, fun h => h.sgn, fun _ a b _ => (a + b + 1) / 2),
   (.vsub, fun h => h.sgn, fun _ a b _ => a - b),
   (.vmul, fun h => h.sgn, fun _ a b _ => a * b),
   (.vmulhi, fun _ => true, fun w a b _ => a * b / 2 ^ w),
   (.vmulhu, fun _ => false, fun w a b _ => a * b / 2 ^ w),
   (.vmad, fun h => h.sgn, fun _ a b d => d + a * b),
   (.vand, fun _ => false, fun _ a b _ => (a.toNat &&& b.toNat : Nat)),
   (.vor, fun _ => false, fun _ a b _ => (a.toNat ||| b.toNat : Nat)),
   (.vxor, fun _ => false, fun _ a b _ => (a.toNat ^^^ b.toNat : Nat)),
   (.vandn, fun _ => false, fun w a b _ => (a.toNat &&& (2 ^ w - 1 - b.toNat) : Nat)),
   (.vshl, fun _ => false, fun w a b _ => a * 2 ^ (b.toNat % w)),
   (.vshr, fun _ => false, fun w a b _ => a / 2 ^ (b.toNat % w)),
   (.vsra, fun _ => true, fun w a b _ => a / 2 ^ ((b % (2 ^ w : Nat)).toNat % w)),
   (.vmin, fun _ => true, fun _ a b _ => min a b),
   (.vmax, fun _ => true, fun _ a b _ => max a b),
   (.vminu, fun _ => false, fun _ a b _ => min a b),
   (.vmaxu, fun _ => false, fun _ a b _ => max a b),
   (.vabsd, fun h => h.sgn, fun _ a b _ => ((a - b).natAbs : Int)),
   (fun d a _ _ => .vmov d a, fun _ => false, fun _ a _ _ => a),
   (fun d a _ _ => .vclz d a, fun _ => false, fun w a _ _ => if a = 0 then (w : Int) else (w : Int) - 1 - (Nat.log2 a.toNat : Nat)),
   (fun d a _ _ => .vpopc d a, fun _ => false, fun w a _ _ => ((List.range w).countP a.toNat.testBit : Nat))]

/-- R172: sub-element `j` of the result, from the words of the operands in a lane. -/
def subResult (h : HMod) (signed : Bool) (f : Nat → Int → Int → Int → Int) (a b d : Word) (j : Nat) : Nat :=
  let w := 32 / 2 ^ h.wid
  let rd := fun (x : Word) (k : Nat) =>
    let u := x.toNat / 2 ^ (w * k) % 2 ^ w
    if signed = true ∧ 2 ^ (w - 1) ≤ u then (u : Int) - 2 ^ w else (u : Int)
  let x := f w (rd a (if h.sela = 0 then j else h.sela - 1)) (rd b (if h.selb = 0 then j else h.selb - 1)) (rd d j)
  let y := if h.sat then (if h.sgn then max (-(2 ^ (w - 1))) (min x (2 ^ (w - 1) - 1)) else max 0 (min x (2 ^ w - 1))) else x
  (y % 2 ^ w).toNat

end Sys2Proof.Machine

/-- R169, R172, R173: each of these instructions completes, and in each lane each sub-element of the vector it writes is the
effect of the table, exact, then clamped with SAT, then modulo 2^w. `VMOV`, `VCLZ` and `VPOPC` read no operand b. -/
def Obligations.LaneResults : Prop :=
  ∀ r ∈ laneTable, ∀ (s : State) (J : Issue) (d a b : BitVec 7) (ib : BitVec 1), J.h.m.wid ≤ 3 → Begins (r.1 d a b ib) s J →
    ∃ x : Lanes, Completes (r.1 d a b ib) s J { st := J.put (J.warp.writeV d.toNat J.mask x) } ∧
      ∀ L < 32, ∀ j < 2 ^ J.h.m.wid,
        (lane x L).toNat / 2 ^ (32 / 2 ^ J.h.m.wid * j) % 2 ^ (32 / 2 ^ J.h.m.wid) =
          subResult J.h.m (r.2.1 J.h.m) r.2.2 (lane (J.va a) L) (lane (J.vb b ib) L) (lane (J.vd d) L) j

/-- R174 to R179: the other instructions of class 0x3, lane by lane. `VCMP` writes the bits of the active lanes of kd, zero outside
G; `VSEL` writes all 32 lanes by G; the 64-bit forms act on pairs; `VIDX` adds the lane number. -/
def Obligations.LaneResultsOfOtherForms : Prop :=
  ∀ (s : State) (J : Issue) (d a b : BitVec 7) (ib : BitVec 1) (k : BitVec 3) (cc : BitVec 4) (n : BitVec 15) (t : BitVec 6),
    (Begins (.vsad d a b ib) s J → ∃ x : Lanes,
      Completes (.vsad d a b ib) s J { st := J.put (J.warp.writeV d.toNat J.mask x) } ∧
      ∀ L < 32, lane x L = sadLane J.h.m (lane (J.va a) L) (lane (J.vb b ib) L) (lane (J.vd d) L)) ∧
    (Begins (.vbfe d a b ib) s J → ∃ x : Lanes,
      Completes (.vbfe d a b ib) s J { st := J.put (J.warp.writeV d.toNat J.mask x) } ∧
      ∀ L < 32, lane x L = bitExtract (lane (J.va a) L) (lane (J.vb b ib) L)) ∧
    (Begins (.vbfi d a b ib) s J → ∃ x : Lanes,
      Completes (.vbfi d a b ib) s J { st := J.put (J.warp.writeV d.toNat J.mask x) } ∧
      ∀ L < 32, lane x L = bitInsert (lane (J.vd d) L) (lane (J.va a) L) (lane (J.vb b ib) L)) ∧
    (Begins (.vcmp k cc a b ib) s J → ∃ x : Word,
      Completes (.vcmp k cc a b ib) s J { st := J.put (J.warp.setK k.toNat x) } ∧
      ∀ L < 32, x.getLsbD L =
        if J.active.getLsbD L = false then (J.warp.getK k.toNat).getLsbD L
        else J.mask.getLsbD L && intCond cc.toNat (lane (J.va a) L) (lane (J.vb b ib) L)) ∧
    (Begins (.vsel d a b ib) s J → ∃ x : Lanes,
      Completes (.vsel d a b ib) s J { st := J.put (J.warp.putV d.toNat x) } ∧
      ∀ L < 32, lane x L = if J.mask.getLsbD L then lane (J.va a) L else lane (J.vb b ib) L) ∧
    (Begins (.vmovi d n) s J → ∃ x : Lanes,
      Completes (.vmovi d n) s J { st := J.put (J.warp.writeV d.toNat J.mask x) } ∧
      ∀ L < 32, lane x L = J.h.imm.getD (n.signExtend 32)) ∧
    (Begins (.vmovs d t) s J → ∃ x : Lanes,
      Completes (.vmovs d t) s J { st := J.put (J.warp.writeV d.toNat J.mask x) } ∧
      ∀ L < 32, lane x L = J.view.getS t.toNat) ∧
    (Begins (.vidx d ib) s J → ∃ x : Lanes,
      Completes (.vidx d ib) s J { st := J.put (J.warp.writeV d.toNat J.mask x) } ∧
      ∀ L < 32, lane x L = BitVec.ofNat 32 (L + if ib = 0#1 then 0 else (J.h.imm.getD 0).toNat)) ∧
    (∀ sub, sub = true ∨ sub = false →
      let i : Instr := if sub then .vsub64 d a b ib else .vadd64 d a b ib
      Begins i s J → ∃ lo hi : Lanes,
        Completes i s J { st := J.put ((J.warp.writeV d.toNat J.mask lo).writeV (d.toNat + 1) J.mask hi) } ∧
        ∀ L < 32,
          let x := pairOf (lane (J.va a) L) (lane (J.va (a + 1)) L)
          let y : Dword := if ib = 0#1 then pairOf (lane (J.vr b) L) (lane (J.vr (b + 1)) L) else (J.h.imm.getD 0).signExtend 64
          pairOf (lane lo L) (lane hi L) = if sub then x - y else x + y)

/-- R116, R169: a vector result changes the lanes of G of its destination alone. The lanes outside G keep their values, zero when
the name was unmapped; no other name changes; the destination is mapped, and the warp holds one register more when it was not.
The model's own choices that it rests on: log entry 54. -/
def Obligations.LanesOutsideKeep : Prop :=
  ∀ (w : Warp) (n m : Nat) (g : Word) (x : Lanes),
    (∀ L < 32, lane ((w.writeV n g x).getV n) L = if g.getLsbD L then lane x L else lane (w.getV n) L) ∧
    (m ≠ n → (w.writeV n g x).getV m = w.getV m) ∧
    (w.writeV n g x).mapped n = true ∧ (m ≠ n → (w.writeV n g x).mapped m = w.mapped m) ∧
    (w.mapped n = false → ∀ L < 32, lane (w.getV n) L = 0) ∧
    ((w.v.map Prod.fst).Pairwise (· < ·) → (w.writeV n g x).held = if w.mapped n then w.held else w.held + 1) ∧
    (w.writeV n g x).s = w.s ∧ (w.writeV n g x).k = w.k ∧ (w.writeV n g x).c = w.c ∧ (w.writeV n g x).d = w.d ∧
    (w.writeV n g x).fpflags = w.fpflags ∧ (w.writeV n g x).srctr = w.srctr ∧ (w.writeV n g x).slots = w.slots ∧
    (w.writeV n g x).frags = w.frags ∧ (w.writeV n g x).budget = w.budget

/-! ### Class 0x4: floating point (R85 to R89, R180 to R189) -/

namespace Sys2Proof.Machine

/-- R182: the instructions of class 0x4 with a vector result. The precision that a form has for its precision field, the function of
one element, and whether the form reads operand b. -/
def floatTable : List ((BitVec 2 → BitVec 7 → BitVec 7 → BitVec 7 → BitVec 1 → Instr) × (BitVec 2 → Nat) × ElemFn × Bool) :=
  [(.vfadd, BitVec.toNat, fun f r z R a b _ => fpAdd f r z R a b, true),
   (.vfsub, BitVec.toNat, fun f r z R a b _ =>
      if (f.decode a).isNaN || (f.decode b).isNaN then fpAdd f r z R a b else fpAdd f r z R a (signMods f false true b), true),
   (.vfmul, BitVec.toNat, fun f r z R a b _ => fpMul f r z R a b, true),
   (.vfma, BitVec.toNat, fun f r z R a b c => fpFma f r z R a b c, true),
   (.vfmin, BitVec.toNat, fun f _ z _ a b _ => fpMinMax false f z a b, true),
   (.vfmax, BitVec.toNat, fun f _ z _ a b _ => fpMinMax true f z a b, true),
   (fun p d a _ _ => .vfrnd p d a, BitVec.toNat, fun f r z R a _ _ => fpRound f r z R a, false),
   (fun p d a _ _ => .vfcls p d a, BitVec.toNat, fun f _ _ _ a _ _ => ⟨fpClass f a, 0⟩, false),
   (fun p d a _ _ => .vfsqrt (p.setWidth 1) d a, fun p => p.toNat % 2, fun f r z R a _ _ => fpSqrt f r z R a, false),
   (fun p => .vfdiv (p.setWidth 1), fun p => p.toNat % 2, fun f r z R a b _ => fpDiv f r z R a b, true),
   (fun _ d a _ _ => .vfrcp d a, fun _ => 0, fun _ _ z _ a _ _ => fpFunction .rcp z a, false),
   (fun _ d a _ _ => .vfrsq d a, fun _ => 0, fun _ _ z _ a _ _ => fpFunction .rsq z a, false),
   (fun _ d a _ _ => .vfexp2 d a, fun _ => 0, fun _ _ z _ a _ _ => fpFunction .exp2 z a, false),
   (fun _ d a _ _ => .vflog2 d a, fun _ => 0, fun _ _ z _ a _ _ => fpFunction .log2 z a, false),
   (fun _ d a _ _ => .vftrig d a 0#7, fun _ => 0, fun _ _ z _ a _ _ => fpFunction .sin z a, false),
   (fun _ d a _ _ => .vftrig d a 1#7, fun _ => 0, fun _ _ z _ a _ _ => fpFunction .cos z a, false),
   (fun _ d a _ _ => .vftrig d a 2#7, fun _ => 0, fun _ _ z _ a _ _ => fpFunction .tanh z a, false)]

end Sys2Proof.Machine

/-- R89, for sums, products, quotients and the fused form: the first NaN operand is returned quieted, any signalling operand raises NV,
and an operation on operands that are no NaN returns the canonical NaN with NV where it is invalid: opposite infinities in a sum and
in the sum of a fused form, and zero times infinity, in either order, in a product and in the product of a fused form. An operand that
the flush bit makes zero counts as zero. -/
def Obligations.FloatNaNs : Prop :=
  ∀ (p rnd : Nat) (fz : Bool) (R a b c : Nat),
    let f := precFmt p
    let nan := fun x => (f.decode x).isNaN = true
    let nv := fun x => if (f.decode x).isSignalling then flagNV else (0 : FpFlags)
    (nan a → (fpAdd f rnd fz R a b) = ⟨f.quiet a, nv a ||| nv b⟩ ∧ (fpMul f rnd fz R a b) = ⟨f.quiet a, nv a ||| nv b⟩ ∧
      (fpFma f rnd fz R a b c) = ⟨f.quiet a, nv a ||| nv b ||| nv c⟩ ∧ (fpDiv f rnd fz R a b) = ⟨f.quiet a, nv a ||| nv b⟩) ∧
    (¬ nan a → nan b → (fpAdd f rnd fz R a b) = ⟨f.quiet b, nv b⟩ ∧ (fpMul f rnd fz R a b) = ⟨f.quiet b, nv b⟩ ∧
      (fpFma f rnd fz R a b c) = ⟨f.quiet b, nv b ||| nv c⟩ ∧ (fpDiv f rnd fz R a b) = ⟨f.quiet b, nv b⟩) ∧
    (¬ nan a → ¬ nan b → nan c → (fpFma f rnd fz R a b c) = ⟨f.quiet c, nv c⟩) ∧
    let bad : Coded := ⟨f.canonicalNaN, flagNV⟩
    let zero := fun x => ∃ v z, f.decode x = .fin v z ∧ (z.isZero = true ∨ (fz = true ∧ f.subnormal (f.decode x) = true))
    (∀ u, f.decode a = .inf u → f.decode b = .inf (!u) → (fpAdd f rnd fz R a b) = bad) ∧
    (∀ u, f.decode a = .inf u → zero b → fpMul f rnd fz R a b = bad ∧ fpMul f rnd fz R b a = bad ∧
      (¬ nan c → fpFma f rnd fz R a b c = bad ∧ fpFma f rnd fz R b a c = bad)) ∧
    (∀ u v, f.decode a = .inf u → ¬ zero b → (f.decode b = .inf v ∨ ∃ z, f.decode b = .fin v z) →
      f.decode c = .inf (!(u ^^ v)) → fpFma f rnd fz R a b c = bad ∧ fpFma f rnd fz R b a c = bad)

/-- R86, R88, R181, R182: each of these instructions completes. In the lanes of G it writes the element function of the operands to
vd, and to the register after vd for binary64; the flags of those lanes join `%fpflags`; and `%srctr` steps once when the rounding is
stochastic, at the issue of an instruction that waits (log entry 77).

R185: `VFCMP` completes; the bit of each lane of G is set when the relation holds for each of its elements, the other active lanes
get zero, and a signalling operand, or any NaN under an ordered relation, raises NV.

R184, R187: a minimum or maximum of operands that are no NaN is one of them, ordered so that -0 is below +0, and raises nothing;
the class of a code is one bit of ten, by its kind and sign.
The model's own choices that it rests on: log entry 20. -/
def Obligations.FloatResults : Prop :=
  (∀ r ∈ floatTable, ∀ (s : State) (J : Issue) (p : BitVec 2) (d a b : BitVec 7) (ib : BitVec 1), Begins (r.1 p d a b ib) s J →
     let prec := r.2.1 p
     let E := J.fpEnv prec
     let vb := if r.2.2.2 then J.fb prec b ib else J.fb prec 0 1#1
     let x := E.map r.2.2.1 (J.va2 a) vb (J.vd2 d)
     let fl := E.flags r.2.2.1 (J.va2 a) vb (J.vd2 d) J.mask
     let w := J.warp.writeV d.toNat J.mask x.lo
     let w := if prec = 1 then w.writeV (d.toNat + 1) J.mask x.hi else w
     Completes (r.1 p d a b ib) s J
       { st := J.put { w with fpflags := w.fpflags ||| fl, srctr := if J.h.m.rnd = 5 ∧ J.latched = false then w.srctr + 1 else w.srctr } }) ∧
  (∀ (s : State) (J : Issue) (p : BitVec 2) (k : BitVec 3) (cc : BitVec 4) (a b : BitVec 7) (ib : BitVec 1),
     Begins (.vfcmp p k cc a b ib) s J →
     let E := J.fpEnv p.toNat
     let f := precFmt p.toNat
     let x := fun L e => E.elem J.h.m.absa J.h.m.nega (J.va2 a) L e
     let y := fun L e => E.elem J.h.m.absb J.h.m.negb (J.fb p.toNat b ib) L e
     ∃ (bits : Word) (fl : FpFlags),
       Completes (.vfcmp p k cc a b ib) s J { st := J.put ((J.warp.setK k.toNat bits).orFlags fl) } ∧
       (∀ L < 32, bits.getLsbD L =
         if J.active.getLsbD L = false then (J.warp.getK k.toNat).getLsbD L
         else J.mask.getLsbD L && (List.range (precElems p.toNat)).all (fun e =>
           fpCond cc.toNat (f.flushIn E.fz (f.decode (x L e))) (f.flushIn E.fz (f.decode (y L e))))) ∧
       (fl = flagNV ∨ fl = 0) ∧
       (fl = flagNV ↔ ∃ L < 32, ∃ e < precElems p.toNat, J.mask.getLsbD L = true ∧
         ((f.decode (x L e)).isSignalling = true ∨ (f.decode (y L e)).isSignalling = true ∨
           (2 ≤ cc.toNat ∧ cc.toNat ≤ 5 ∧ ((f.decode (x L e)).isNaN = true ∨ (f.decode (y L e)).isNaN = true))))) ∧
  (∀ (p : Nat) (a b : Nat),
     let f := precFmt p
     let va := f.decode a
     let vb := f.decode b
     (va.isNaN = false → vb.isNaN = false →
       (fpMinMax false f false a b).code = (if orderedBefore va vb then a else b) ∧
       (fpMinMax true f false a b).code = (if orderedBefore va vb then b else a) ∧
       (fpMinMax false f false a b).flags = 0 ∧ (fpMinMax true f false a b).flags = 0) ∧
     (∀ n fr w, va = .nan n fr w true → fpClass f a = 1) ∧ (∀ n fr w, va = .nan n fr w false → fpClass f a = 2) ∧
     (va = .inf true → fpClass f a = 4) ∧ (va = .inf false → fpClass f a = 512) ∧
     (∀ m, va = .fin true m → m.isZero = true → fpClass f a = 32) ∧ (∀ m, va = .fin false m → m.isZero = true → fpClass f a = 64) ∧
     (∀ m, va = .fin true m → f.subnormal va = true → fpClass f a = 16) ∧
     (∀ m, va = .fin false m → f.subnormal va = true → fpClass f a = 128) ∧
     (∀ m, va = .fin true m → m.isZero = false → f.subnormal va = false → fpClass f a = 8) ∧
     (∀ m, va = .fin false m → m.isZero = false → f.subnormal va = false → fpClass f a = 256))

/-- R83, R84 for the element formats of class 0x4: the value of a finite code rounds to that code in every mode, and raises no flag. -/
def Obligations.RoundingKeepsExactValues : Prop :=
  ∀ (p rnd : Nat) (sat : Bool) (R c : Nat) (u : Bool) (m : Rat'), p ≤ 3 → c < 2 ^ (precFmt p).width →
    (precFmt p).decode c = .fin u m → (precFmt p).round rnd sat false R u m = ⟨c, 0⟩

/-! ### Class 0x7: crossing lanes (R191 to R206) -/

namespace Sys2Proof.Machine

/-- The lanes of G, ascending, at or below a lane or below it. -/
def lanesBefore (g : Word) (L : Nat) (here : Bool) : List Nat :=
  (List.range 32).filter (fun M => g.getLsbD M && (decide (M < L) || (here && M == L)))

end Sys2Proof.Machine

/-- R194 to R197: shuffles, byte permutes, matches, ballots, votes and elections complete, lane by lane. -/
def Obligations.CrossingsByLane : Prop :=
  ∀ (s : State) (J : Issue) (d a b : BitVec 7) (ib : BitVec 1) (k : BitVec 3) (cc : BitVec 4),
    let keep := fun (x : Word) (L : Nat) => J.active.getLsbD L = false → x.getLsbD L = (J.warp.getK k.toNat).getLsbD L
    let holds := fun L => intCond cc.toNat (lane (J.va a) L) (lane (J.vb b ib) L)
    let key := fun (L : Nat) => if J.h.m.wid = 0 then (lane (J.va a) L).toNat
      else (lane (J.va a) L).toNat / 2 ^ (32 / 2 ^ J.h.m.wid * (if J.h.m.sela = 0 then 7 else J.h.m.sela - 1)) % 2 ^ (32 / 2 ^ J.h.m.wid)
    (Begins (.vshfl d a b ib) s J → ∃ x : Lanes,
      Completes (.vshfl d a b ib) s J { st := J.put (J.warp.writeV d.toNat J.mask x) } ∧
      ∀ L < 32, lane x L = lane (J.va a) ((lane (J.vb b ib) L).toNat % 32)) ∧
    (Begins (.vperm d a b) s J → ∃ x : Lanes,
      Completes (.vperm d a b) s J { st := J.put (J.warp.writeV d.toNat J.mask x) } ∧
      ∀ L < 32, ∀ i < 4,
        let c := (lane (J.vd d) L).toNat / 2 ^ (4 * i) % 16
        (lane x L).toNat / 2 ^ (8 * i) % 2 ^ 8 =
          if c < 4 then (lane (J.va a) L).toNat / 2 ^ (8 * c) % 2 ^ 8
          else if c < 8 then (lane (J.vr b) L).toNat / 2 ^ (8 * (c - 4)) % 2 ^ 8 else 0) ∧
    (Begins (.vmatch k a d) s J → ∃ (x : Lanes) (y : Word),
      Completes (.vmatch k a d) s J { st := J.put ((J.warp.writeV d.toNat J.mask x).setK k.toNat y) } ∧
      ∀ L < 32, (∀ M < 32, (lane x L).getLsbD M = (J.mask.getLsbD M && decide (key M = key L))) ∧ keep y L ∧
        (J.active.getLsbD L = true →
          (y.getLsbD L = true ↔ J.mask.getLsbD L = true ∧ ∀ M < L, J.mask.getLsbD M = true → key M ≠ key L))) ∧
    (Begins (.vballot k cc a b ib) s J → ∃ x : Word,
      Completes (.vballot k cc a b ib) s J { st := J.put (J.warp.setK k.toNat x) } ∧
      ∀ L < 32, x.getLsbD L = (J.mask.getLsbD L && holds L)) ∧
    (Begins (.vvote k cc a b ib) s J → ∃ x : Word,
      Completes (.vvote k cc a b ib) s J { st := J.put (J.warp.setK k.toNat x) } ∧
      ∀ L < 32, keep x L ∧ (J.active.getLsbD L = true →
        (x.getLsbD L = true ↔ J.mask.getLsbD L = true ∧ ∀ M < 32, J.mask.getLsbD M = true → holds M = true))) ∧
    (Begins (.velect k) s J → ∃ x : Word,
      Completes (.velect k) s J { st := J.put (J.warp.setK k.toNat x) } ∧
      ∀ L < 32, keep x L ∧ (J.active.getLsbD L = true →
        (x.getLsbD L = true ↔ J.mask.getLsbD L = true ∧ ∀ M < L, J.mask.getLsbD M = false)))

/-- R200, R201: a reduction combines the lanes of G, and a scan gives each lane the combination of the lanes of G at or below it, or
below it for the exclusive form; with an empty G they write nothing.

R200: the integer combinations of a list of lanes, for each sub-element of `w` bits: the sum, exact, then clamped with SAT, then
modulo 2^w; the least and greatest, as two's complement and unsigned; and the bitwise ones. No lane gives the identity. -/
def Obligations.ReductionsAndScans : Prop :=
  (∀ (s : State) (J : Issue) (d a o : BitVec 7),
     (Begins (.vredx d a o) s J → J.mask = 0 → Completes (.vredx d a o) s J { st := J.st }) ∧
     (Begins (.vscanx d a o) s J → J.mask = 0 → Completes (.vscanx d a o) s J { st := J.st }) ∧
     (Begins (.vredx d a o) s J → J.mask ≠ 0 → ∃ x : Lanes,
       Completes (.vredx d a o) s J { st := J.put (J.warp.writeV d.toNat J.mask x) } ∧
       ∀ L < 32, lane x L = combine J.h.m (o.toNat % 16) ((lanesBefore J.mask 32 false).map (lane (J.va a)))) ∧
     (Begins (.vscanx d a o) s J → J.mask ≠ 0 → ∃ x : Lanes,
       Completes (.vscanx d a o) s J { st := J.put (J.warp.writeV d.toNat J.mask x) } ∧
       ∀ L < 32, lane x L =
         combine J.h.m (o.toNat % 16) ((lanesBefore J.mask L (decide (o.toNat / 16 % 2 = 0))).map (lane (J.va a))))) ∧
  (∀ (h : HMod) (xs : List Word) (j : Nat), h.wid ≤ 3 → j < 2 ^ h.wid →
     let w := 32 / 2 ^ h.wid
     let es := xs.map (fun x => x.toNat / 2 ^ (w * j) % 2 ^ w)
     let sg := fun (x : Nat) => if 2 ^ (w - 1) ≤ x then (x : Int) - 2 ^ w else (x : Int)
     let total : Int := (es.map (fun e => if h.sgn then sg e else (e : Int))).sum
     let held : Int := if h.sat = false then total
       else if h.sgn then max (-(2 ^ (w - 1))) (min total (2 ^ (w - 1) - 1)) else max 0 (min total (2 ^ w - 1))
     let out := fun op => (combine h op xs).toNat / 2 ^ (w * j) % 2 ^ w
     out 0 = (held % 2 ^ w).toNat ∧
     (∀ e ∈ es, sg (out 1) ≤ sg e) ∧ (es ≠ [] → out 1 ∈ es) ∧ (es = [] → out 1 = 2 ^ (w - 1) - 1) ∧
     (∀ e ∈ es, sg e ≤ sg (out 2)) ∧ (es ≠ [] → out 2 ∈ es) ∧ (es = [] → out 2 = 2 ^ (w - 1)) ∧
     (∀ e ∈ es, out 3 ≤ e) ∧ (es ≠ [] → out 3 ∈ es) ∧ (es = [] → out 3 = 2 ^ w - 1) ∧
     (∀ e ∈ es, e ≤ out 4) ∧ (es ≠ [] → out 4 ∈ es) ∧ (es = [] → out 4 = 0) ∧
     (∀ i < w, (out 5).testBit i = es.all (fun e => e.testBit i)) ∧
     (∀ i < w, (out 6).testBit i = es.any (fun e => e.testBit i)) ∧
     (∀ i < w, (out 7).testBit i = decide (es.countP (fun e => e.testBit i) % 2 = 1)))

/-- R198, R199: the mask instructions act on whole registers. The count and the number of the lowest set bit, 32 for none, go to a
scalar.

R202 to R206: packing writes `w` lanes of the destination from lane `p`, with elements of zero for lanes outside G, and unpacking,
compression and expansion are lane by lane. -/
def Obligations.MasksAndPacking : Prop :=
  (∀ (s : State) (J : Issue) (d a b : BitVec 3) (t : BitVec 6),
     let x := J.view.getK a.toNat
     let y := J.view.getK b.toNat
     (Begins (.kand d a b) s J → Completes (.kand d a b) s J { st := J.put (J.warp.setK d.toNat (x &&& y)) }) ∧
     (Begins (.kor d a b) s J → Completes (.kor d a b) s J { st := J.put (J.warp.setK d.toNat (x ||| y)) }) ∧
     (Begins (.kxor d a b) s J → Completes (.kxor d a b) s J { st := J.put (J.warp.setK d.toNat (x ^^^ y)) }) ∧
     (Begins (.knot d a) s J → Completes (.knot d a) s J { st := J.put (J.warp.setK d.toNat (~~~x)) }) ∧
     (Begins (.kmov d a) s J → Completes (.kmov d a) s J { st := J.put (J.warp.setK d.toNat x) }) ∧
     (Begins (.kcnt t a) s J →
       Completes (.kcnt t a) s J { st := J.put (J.warp.setS t.toNat (BitVec.ofNat 32 ((List.range 32).countP x.getLsbD))) }) ∧
     (Begins (.kfirst t a) s J → ∃ n, Completes (.kfirst t a) s J { st := J.put (J.warp.setS t.toNat (BitVec.ofNat 32 n)) } ∧
       n ≤ 32 ∧ (∀ m < n, x.getLsbD m = false) ∧ (n < 32 → x.getLsbD n = true)) ∧
     (Begins (.ktos t a) s J → Completes (.ktos t a) s J { st := J.put (J.warp.setS t.toNat x) }) ∧
     (Begins (.stok t a) s J → Completes (.stok t a) s J { st := J.put (J.warp.setK a.toNat (J.view.getS t.toNat)) })) ∧
  (∀ (s : State) (J : Issue) (d a p : BitVec 7),
     (∀ r ∈ [(8, Instr.vpackb d a p), (4, Instr.vpackn d a p), (6, Instr.vpack6 d a p)], Begins r.2 s J → ∃ (x : Lanes) (m : Word),
       Completes r.2 s J { st := J.put (J.warp.writeV d.toNat m x) } ∧
       (∀ L < 32, m.getLsbD L = (decide (p.toNat ≤ L) && decide (L < p.toNat + r.1))) ∧
       ∀ L < 32, p.toNat + r.1 ≤ 32 →
         let e := if J.mask.getLsbD L then packElem J.h.m r.1 (lane (J.va a) L) else 0
         ∀ i < r.1, (lane x (p.toNat + (r.1 * L + i) / 32)).getLsbD ((r.1 * L + i) % 32) = e.testBit i) ∧
     (Begins (.vunpk6 d a p) s J → ∃ x : Lanes,
       Completes (.vunpk6 d a p) s J { st := J.put (J.warp.writeV d.toNat J.mask x) } ∧
       ∀ L < 32, ∀ i < 32, (lane x L).getLsbD i =
         if i < 6 then (lane (J.va a) (p.toNat + (6 * L + i) / 32)).getLsbD ((6 * L + i) % 32)
         else J.h.m.sgn && (lane (J.va a) (p.toNat + (6 * L + 5) / 32)).getLsbD ((6 * L + 5) % 32)) ∧
     (Begins (.vcmpr d a) s J → ∃ x : Lanes,
       Completes (.vcmpr d a) s J { st := J.put (J.warp.putV d.toNat x) } ∧
       ∀ L < 32,
         let g := lanesBefore J.mask 32 false
         let half := fun n => ((g[n]?).map (fun M => toBf16 (lane (J.va a) M))).getD 0
         lane x L = if J.h.m.wid = 0 then ((g[L]?).map (lane (J.va a))).getD 0
           else BitVec.ofNat 32 (half (2 * L) + half (2 * L + 1) * 2 ^ 16)) ∧
     (Begins (.vxpnd d a) s J → ∃ x : Lanes,
       Completes (.vxpnd d a) s J { st := J.put (J.warp.writeV d.toNat J.mask x) } ∧
       ∀ L < 32,
         let n := (lanesBefore J.mask L false).length
         lane x L = if J.h.m.wid = 0 then lane (J.va a) n
           else BitVec.ofNat 32 ((lane (J.va a) (n / 2)).toNat / 2 ^ (16 * (n % 2)) % 2 ^ 16 * 2 ^ 16)))

/-! ### Memory and its accesses (R2, R207 to R235, R255 to R268) -/

/-- R2: a byte read after a write is the byte written, other bytes keep their values, numbers are little-endian, every write keeps the
canonical form, and memories of that form that read the same are the same. -/
def Obligations.MemoryReadsAfterWrites : Prop :=
  ∀ (m m' : List Host.Cell) (a c n x : Nat) (b : Byte),
    memRead (memWrite m a b) c = (if c = a then b else memRead m c) ∧
    memNat (memSetNat m a n x) a n = x % 2 ^ (8 * n) ∧
    (c < a ∨ a + n ≤ c → memRead (memSetNat m a n x) c = memRead m c) ∧
    (∀ i < n, memRead (memSetNat m a n x) (a + i) = BitVec.ofNat 8 (x / 2 ^ (8 * i))) ∧
    (Memory.wf m = true → Memory.wf (memWrite m a b) = true ∧ Memory.wf (memSetNat m a n x) = true) ∧
    (Memory.wf m = true → Memory.wf m' = true → (∀ k, memRead m k = memRead m' k) → m = m')

namespace Sys2Proof.Machine

/-- The store numbers of a core rise along its store buffer, and the next one is above them all (R256). -/
def State.storesOrdered (s : State) (core : Nat) : Prop :=
  ((s.sbuf.filter (fun e => e.core == core)).map StoreEntry.seq).Pairwise (· < ·) ∧
    ∀ e ∈ s.sbuf, e.core = core → e.seq < s.storeNumber core

end Sys2Proof.Machine

/-- R255 to R257: what a store does when it enters its core's store buffer. One of core scope changes no memory and no other core's
reads, and its core reads it at once. One of a wider scope is sent on: when no older entry of its core is over the same bytes, it
performs at a home on its own die, so that every agent reads it, and is a message toward any other; while a copy or the host holds its
line it waits. It leaves behind every older entry of its core for the same bytes, and its core reads it at once in every case.
The model's own choices that it rests on: log entry 40. -/
def Obligations.StoresAreSeen : Prop :=
  ∀ (s : State) (f : Sender) (scope : Nat) (rel : Option Nat) (key : Nat) (data : List Byte), f.core < 48 →
    let n := s.storeNumber f.core
    let t := s.storeGlobal f scope rel key data
    let u := { s with sbufSeq := s.sbufSeq.setIfInBounds f.core (n + 1) }
    let wide := decide (0 < rel.getD 0)
    let far := away (dieOf f.core) key
    let meets := fun (e : StoreEntry) => rangesMeet e.key e.data.length key data.length
    (scope = 0 → t.mem = s.mem ∧ (∀ i (h : i < data.length), t.readByte f.core (key + i) = data[i]) ∧
      (∀ d k, d ≠ f.core → t.readByte d k = s.readByte d k) ∧
      ∀ k, k < key ∨ key + data.length ≤ k → t.readByte f.core k = s.readByte f.core k) ∧
    (scope ≠ 0 → s.storesOrdered f.core → (∀ e ∈ s.sbuf, e.due = false) →
      (∀ e ∈ s.sbuf, e.core = f.core → wide = false ∧ meets e = false) → (wide = true → s.sentUnperformed f.core n = false) →
      (far = true → t = u.send 1 f n key data (.write rel)) ∧
      (far = false → s.lineHeld f.core n (lineOf key) = true → t.mem = s.mem) ∧
      (far = false → s.lineHeld f.core n (lineOf key) = false → t = u.writeHome f.core n key data rel ∧
        ∀ d i (h : i < data.length), (∀ e ∈ s.sbuf, e.core = d → meets e = false) → s.messageByte d (key + i) = none →
          t.readByte d (key + i) = data[i])) ∧
    (scope ≠ 0 → s.storesOrdered f.core → far = false →
      (∀ e ∈ s.sbuf, e.core = f.core → meets e = true → away (dieOf f.core) e.key = false) →
      (∀ g ∈ s.flows, ∀ m ∈ g.held, m.core = f.core → m.ordered = true → m.performed = false →
        rangesMeet m.key m.data.length key data.length = false) →
      (∀ i (h : i < data.length), t.readByte f.core (key + i) = data[i]) ∧
      ((∀ e ∈ t.sbuf, e.core = f.core → e.seq ≠ n) → (∀ i (h : i < data.length), memRead t.mem (key + i) = data[i]) ∧
        ∀ e ∈ t.sbuf, e.core = f.core → meets e = false))

/-- R256: the store numbers of every core rise along its buffer, and every step keeps this. -/
def Obligations.StepsKeepStoreOrder : Prop :=
  ∀ s t : State, (∀ c < 48, s.storesOrdered c) → step s = .next t → ∀ c < 48, t.storesOrdered c

/-- R216, R226: the operations of an atomic on `z` bytes of old value `x`, exact modulo 2^(8z), and the bytes that one atomic leaves at
its home: its own hold the new value and all others are as before.

R255: an atomic that goes on has every older store of its core to its bytes out of the store buffer. -/
def Obligations.AtomicOperations : Prop :=
  ∀ (z x b : Nat), z = 4 ∨ z = 8 → x < 2 ^ (8 * z) → b < 2 ^ (8 * z) →
    let sg := fun (n : Nat) => if 2 ^ (8 * z - 1) ≤ n then (n : Int) - 2 ^ (8 * z) else (n : Int)
    atomicValue 0 z x b = (x + b) % 2 ^ (8 * z) ∧ (atomicValue 1 z x b : Int) = ((x : Int) - b) % 2 ^ (8 * z) ∧
    atomicValue 2 z x b = (if sg x ≤ sg b then x else b) ∧ atomicValue 3 z x b = (if sg b ≤ sg x then x else b) ∧
    atomicValue 4 z x b = (if x ≤ b then x else b) ∧ atomicValue 5 z x b = (if b ≤ x then x else b) ∧
    (∀ i, (atomicValue 6 z x b).testBit i = (x.testBit i && b.testBit i)) ∧
    (∀ i, (atomicValue 7 z x b).testBit i = (x.testBit i || b.testBit i)) ∧
    (∀ i, (atomicValue 8 z x b).testBit i = (x.testBit i ^^ b.testBit i)) ∧
    atomicValue 9 z x b = b ∧ atomicValue 10 z x b = (if b ≤ x then 0 else x + 1) ∧
    atomicValue 11 z x b = (if x = 0 ∨ b < x then b else x - 1) ∧
    (∀ (s s' : State) (core : Nat) (reqs : List AtomReq), s.atomicAfter core reqs = .ok s' →
      ∀ e ∈ s'.sbuf, e.core = core → ∀ r ∈ reqs, rangesMeet e.key e.data.length r.key r.size = false) ∧
    ∀ (s : State) (core order : Nat) (rel : Option Nat) (r : AtomReq),
      let p := s.atomicAt core order rel r
      p.2 = memNat s.mem r.key r.size ∧ memNat p.1.mem r.key r.size = r.value p.2 % 2 ^ (8 * r.size) ∧
      (∀ k, k < r.key ∨ r.key + r.size ≤ k → memRead p.1.mem k = memRead s.mem k) ∧
      (∀ c, r.cmp = some c → r.value p.2 = if p.2 = c.toNat then r.b.toNat else p.2) ∧
      (r.cmp = none → r.value p.2 = atomicValue r.op r.size p.2 r.b.toNat)

/-- R224, R225: what faults a lane, and with which rank: `BOUNDS` 0, `ALIGN` 1, `PROT` 2. A fault of an access names every faulting lane,
its cause is the one of lowest rank, so BOUNDS before ALIGN before PROT, and its detail is that of the lowest lane with that cause; no
lane performs. -/
def Obligations.AccessFaultsInOrder : Prop :=
  (∀ (l : LaneState) (va cause : Nat),
    (l.chk = .bounds → l.fault = some (0, { code := .bounds, detail := BitVec.ofNat 32 l.idx })) ∧
    (l.chk = .align va → l.fault = some (1, { code := .align, addr := BitVec.ofNat 64 va })) ∧
    (l.chk = .readOnly va → l.fault = some (2, { code := .prot, aux := 3, addr := BitVec.ofNat 64 va })) ∧
    (l.chk = .want va → l.xlat = some (.prot cause) →
      l.fault = some (2, { code := .prot, aux := BitVec.ofNat 32 cause, addr := BitVec.ofNat 64 va })) ∧
    (l.chk = .clamped → l.fault = none) ∧ (l.chk = .want va → (∀ c, l.xlat ≠ some (.prot c)) → l.fault = none)) ∧
  ∀ (ls : List LaneState) (rank : Nat) (l : LaneState) (t : Trap) (s : State) (a : Agent) (v : Visit) (write reads : Bool),
    l ∈ ls → l.fault = some (rank, t) → (∀ x ∈ ls, ∀ r u, x.fault = some (r, u) → rank ≤ r) →
    (∀ (i j : Nat), i < j → ∀ x y : LaneState, ls[i]? = some x → ls[j]? = some y → x.lane < y.lane) →
    (∀ x ∈ ls, x.lane < l.lane → ∀ u, x.fault ≠ some (rank, u)) → anyNowhere ls = false →
    ∃ m : Word, (∀ L < 32, m.getLsbD L = ls.any (fun x => x.lane == L && x.fault.isSome)) ∧
      s.settle a ls v write reads =
        .error (.trap { t with lanes := some m, stale := if write then (wantedVas ls).map (fun va => (.write, va)) else [] })

/-- R219 to R223: the vector accesses to global memory whose lanes resolve complete. A load writes the bytes that the core sees, in the
lanes of G, as size codes extend them; `VLDP` sets kd for the lanes that loaded; a store stores its lanes, the highest last; `VPREF`
sends the prefetches that leave its die, and changes no memory and no register.

R226 to R228: the vector atomics whose lanes resolve in device memory perform at once, in ascending lane order, and `VATOM` and
`VCAS` write the old values, zero in the lanes that a clamp leaves out. -/
def Obligations.VectorMemory : Prop :=
  (∀ (s s₁ s₂ : State) (J : Issue) (d i : BitVec 7) (n : BitVec 4) (z k : BitVec 3) (t : BitVec 1),
     let size := sizeBytes z.toNat
     let ls := J.resolve n size false (J.indexed i)
     let ws := J.resolve n size true (J.indexed i)
     let wide := if t = 1#1 then 5 else 4
     let ps := (J.resolve n (sizeBytes wide) false (J.indexed i)).filter (fun l =>
       match l.xlat with | some (.waits _) => false | _ => true)
     (Begins (.vld d i n z t) s J → J.st.settle J.agent ls J.visitLoad false true = .ok s₁ →
       Completes (.vld d i n z t) s J
         { st := s₁.setWarp (writeSized (J.at s₁).warp d.toNat z.toNat J.mask (s₁.loadLanes J.agent size ls)) }) ∧
     (Begins (.vldp d i n k t) s J → J.st.settle J.agent ps J.visitLoad false true = .ok s₁ →
       let vs := s₁.loadLanes J.agent (sizeBytes wide) ps
       Completes (.vldp d i n k t) s J
         { st := s₁.setWarp ((writeSized (J.at s₁).warp d.toNat wide J.mask vs).setK k.toNat
             (J.maskBits k (maskOf (fun L => vs.any (fun v => v.1 == L))))) }) ∧
     (Begins (.vst d i n z t) s J → J.st.settle J.agent ws J.visitStore true false = .ok s₁ →
       (if J.releases then J.release s₁ J.h.m.scope else .ok s₁) = .ok s₂ →
       Completes (.vst d i n z t) s J { st := J.storeLanes s₂ size ws J.ownLane (J.readSized d.toNat z.toNat) }) ∧
     (∀ u v, Begins (.vpref i n t) s J →
       (let ps := J.resolve n 1 false (J.indexed i)
        u = (J.st.sendWalks J.agent .read (wantedVas ps)).toOption.getD J.st ∧
        v = u.sendReads J.agent (awayLanes J.agent.die ps) .prefetch) →
       Completes (.vpref i n t) s J { st := v } ∧ v.mem = J.st.mem ∧ v.warps = J.st.warps)) ∧
  (∀ (s s₁ s₂ s₃ : State) (J : Issue) (f d i v : BitVec 6) (n : BitVec 4),
     let z := if J.h.m.wid = 1 then 8 else 4
     let code := if J.h.m.wid = 1 then 5 else 4
     let ls := J.resolve n z true (J.indexed i)
     let reqs := fun (op : Nat) (cmp : Nat → Option Nat) => (performLanes ls).map (fun p =>
       { lane := p.1, key := p.2.2, size := z, op := op, b := BitVec.ofNat 64 (J.readSized v.toNat code p.1),
         cmp := (cmp p.1).map (BitVec.ofNat 64), va := p.2.1 : AtomReq })
     let goes := fun (rs : List AtomReq) =>
       J.release s₁ (J.atomicScope J.ownLane rs) = .ok s₂ ∧ s₂.atomicAfter J.warp.core rs = .ok s₃
     let old : AtomDest := .vector d.toNat (J.h.m.wid == 1) (clampedLanes ls)
     J.st.settle J.agent ls J.visitAtomic true false = .ok s₁ →
     anyAway (dieOf J.warp.core) ((performLanes ls).map (fun p => p.2.2)) = false →
     (∀ rs, rs = reqs f.toNat (fun _ => none) → goes rs →
       let r := J.performAtomics s₃ J.ownLane rs
       (Begins (.vatom f d i v n) s J →
         Completes (.vatom f d i v n) s J { st := r.1.setWarp (old.write (J.at r.1).warp r.2) }) ∧
       (Begins (.vred f i v n) s J → Completes (.vred f i v n) s J { st := r.1.setWarp (J.at r.1).warp })) ∧
     (∀ rs, rs = reqs 9 (fun L => some (J.readSized d.toNat code L)) → goes rs → Begins (.vcas d i v n) s J →
       let r := J.performAtomics s₃ J.ownLane rs
       Completes (.vcas d i v n) s J { st := r.1.setWarp (old.write (J.at r.1).warp r.2) }))

/-- R229 to R235: the scratchpad forms whose lanes lie inside the group's scratchpad, aligned. Loads give the bytes of each lane and
stores write them, the highest lane last, in every size and alignment of the form's own; atomics act in ascending lane order.

R233: a lane of an atomic whose lock is held waits; the other lanes perform, and the results are written when the last has performed.

R234: a locking load takes the free locks and loads. Lanes whose lock is held elsewhere form a fragment at the instruction, and when
they are all the active lanes the fragment itself stays there; `VSTUL` stores and releases the locks of G.

R224, R229: an access outside the group's scratchpad raises BOUNDS with the address of its lowest such lane, a misaligned one
inside it ALIGN, and no lane performs; every faulting lane is named.
The model's own choices that it rests on: log entries 62 and 101. -/
def Obligations.Scratchpad : Prop :=
  (∀ (s : State) (J : Issue) (d a : BitVec 7) (z : BitVec 3) (o : BitVec 5) (ps : List (Nat × Nat)),
     let size := sizeBytes z.toNat
     let pad := J.group.spadAt J.warp.pos
     J.spadLanes size (J.spadAddrs a o.toNat size) = .ok ps →
     (Begins (.vlds d a z o) s J →
       Completes (.vlds d a z o) s J
         { st := J.put (writeSized J.warp d.toNat z.toNat J.mask (ps.map (fun p => (p.1, memNat pad p.2 size)))) }) ∧
     (Begins (.vsts d a z o) s J →
       Completes (.vsts d a z o) s J
         { st := J.st.writeSpad J.group.uid J.warp.pos (storeSpad pad size ps (J.readSized d.toNat z.toNat)) })) ∧
  (∀ (s : State) (J : Issue) (x y v : BitVec 6) (op : BitVec 4) (qs : List (Nat × Nat)),
     let az := if J.h.m.wid = 1 then 8 else 4
     let ac := if J.h.m.wid = 1 then 5 else 4
     let did := (J.frag.latch.map Latch.did).getD 0
     let todo := qs.filter (fun p => !did.getLsbD p.1)
     let held := fun (p : Nat × Nat) => J.st.lockHeld J.warp.core (lockOf p.2)
     let run := fun (op : Nat) (cmp : Nat → Option Nat) =>
       (todo.filter (fun p => !held p)).foldl (fun (acc : List Host.Cell × List (Nat × Nat)) p =>
         let r := spadAtomic acc.1 { lane := p.1, key := p.2, size := az, op := op,
                                     b := BitVec.ofNat 64 (J.readSized v.toNat ac p.1), cmp := (cmp p.1).map (BitVec.ofNat 64), va := p.2 }
         (r.1, acc.2 ++ [(p.1, r.2)])) (J.group.spadAt J.warp.pos, (J.frag.latch.map Latch.got).getD [])
     let put := fun (st : State) (m : List Host.Cell) => st.writeSpad J.group.uid J.warp.pos m
     let waits := fun (i : Instr) (r : List Host.Cell × List (Nat × Nat)) =>
       let w := Wait.lock ((todo.filter held).map Prod.snd)
       let l := { (J.frag.latch.getD (J.latch i w)) with did := maskOf (fun L => r.2.any (fun p => p.1 == L)), got := r.2 }
       Waits i s J (put (J.put (J.warp.setFrag { J.frag with latch := some l })) r.1) w
     J.spadLanes az (J.spadAddrs y 0 az) = .ok qs →
     (Begins (.vsatom x y v op) s J →
       let r := run op.toNat (fun _ => none)
       (todo.any held = false →
         Completes (.vsatom x y v op) s J { st := put (J.put (writeSized J.warp x.toNat ac J.mask r.2)) r.1 }) ∧
       (todo.any held = true → waits (.vsatom x y v op) r)) ∧
     (Begins (.vscas x y v) s J →
       let r := run 9 (fun L => some (J.readSized x.toNat ac L))
       (todo.any held = false →
         Completes (.vscas x y v) s J { st := put (J.put (writeSized J.warp x.toNat ac J.mask r.2)) r.1 }) ∧
       (todo.any held = true → waits (.vscas x y v) r))) ∧
  (∀ (s : State) (J : Issue) (d a : BitVec 7) (o : BitVec 5) (rs : List (Nat × Nat)),
     let az := if J.h.m.wid = 1 then 8 else 4
     let ac := if J.h.m.wid = 1 then 5 else 4
     let pad := J.group.spadAt J.warp.pos
     let w := J.warp.releaseLocks J.mask
     let got := takeLocks (J.put w) J.warp.core [] rs
     let took := maskOf (fun L => got.any (fun p => p.1 == L))
     let late := maskOf (fun L => rs.any (fun p => p.1 == L) && !got.any (fun p => p.1 == L))
     let loaded := writeSized { w with locks := w.locks ++ got } d.toNat ac took (got.map (fun p => (p.1, memNat pad p.2 az)))
     J.spadLanes az (J.spadAddrs a o.toNat az) = .ok rs →
     (Begins (.vldl d a o) s J → late = 0 → Completes (.vldl d a o) s J { st := J.st.setWarp loaded }) ∧
     (Begins (.vldl d a o) s J → late ≠ 0 → late = J.active →
       Completes (.vldl d a o) s J { st := J.put (w.setFrag { J.frag.retry with stallTill := J.stall }), flow := .done }) ∧
     (Begins (.vldl d a o) s J → late ≠ 0 → late ≠ J.active →
       let new : Frag := { Frag.fresh loaded.nextFrag loaded.freeRecord late J.frag.head with
         ret := J.frag.ret, conv := J.frag.conv, stallTill := J.stall }
       let u := loaded.setFrag { J.frag with lanes := J.active &&& ~~~late }
       Completes (.vldl d a o) s J
         { st := J.st.setWarp { u with frags := u.frags ++ [new], nextFrag := u.nextFrag + 1 }, flow := .jump (J.frag.pc + 4) }) ∧
     (Begins (.vstul d a o) s J →
       Completes (.vstul d a o) s J
         { st := (J.put w).writeSpad J.group.uid J.warp.pos (storeSpad pad az rs (J.readSized d.toNat ac)) })) ∧
  (∀ (J : Issue) (z : Nat) (as : List (Nat × Int)),
     let out := fun (p : Nat × Int) => decide (p.2 < 0 ∨ (65536 * J.grid.kd.sp : Int) < p.2 + z)
     let odd := fun (p : Nat × Int) => decide (p.2 % (z : Int) ≠ 0)
     let bad := maskOf (fun L => as.any (fun p => p.1 == L && (out p || odd p)))
     (∀ p, as.find? out = some p →
       J.spadLanes z as = .error (.trap { code := .bounds, detail := BitVec.ofInt 32 p.2, lanes := some bad })) ∧
     (as.find? out = none → ∀ p, as.find? odd = some p →
       J.spadLanes z as = .error (.trap { code := .align, addr := (BitVec.ofInt 32 p.2).setWidth 64, lanes := some bad })) ∧
     (as.find? out = none → as.find? odd = none → J.spadLanes z as = .ok (as.map (fun p => (p.1, p.2.toNat)))))

/-! ### Class 0xC: formats and conversions (R72 to R101) -/

/-- R79, R81, R95 to R97: `FMTGET` and `FMTCHK` write the entry and its status; `FMTSET` of a writable entry with a legal word makes
the entry Updating and waits until FORMAT_UPDATE_COMPLETE, which writes the entry and lets who waits for it go on; while an earlier one
of the entry is under way it waits its turn; a fixed entry or an illegal word is `ILLFMT`. While an entry is Updating, a core reads
the new word once its replica holds it, and the old one before.

R73, R97: `FMTCHK` names each reason for which a word is illegal in a bit of its own, and a word is legal when none holds. -/
def Obligations.FormatInstructions : Prop :=
  (∀ (s : State) (J : Issue) (f : BitVec 4) (a : BitVec 6),
     let entry := if f.toNat < 6 then fixedEntry f.toNat else J.ctx.fmt.getD (f.toNat - 6) 0
     let x := J.view.getS a.toNat
     (Begins (.fmtget f a) s J → Completes (.fmtget f a) s J { st := J.put (J.warp.setS a.toNat entry) }) ∧
     (Begins (.fmtchk f a) s J → Completes (.fmtchk f a) s J { st := J.put (J.warp.setS a.toNat (fmtStatus entry)) }) ∧
     (∀ c, Begins (.fmtset f a) s J → 6 ≤ f.toNat → fmtLegal x = true → J.ctx.updating.find? (fun u => u.n == f.toNat) = none →
       J.st.ctxOf J.group = some c →
       Waits (.fmtset f a) s J
         (({ J.st with fresh := J.st.fresh + 1 } : State).setCtx
           { c with updating := c.updating ++ [{ stamp := J.st.fresh, n := f.toNat, word := x, cores := [] }] })
         (.format J.st.fresh true)) ∧
     (∀ u, Begins (.fmtset f a) s J → 6 ≤ f.toNat → fmtLegal x = true → J.ctx.updating.find? (fun u => u.n == f.toNat) = some u →
       Waits (.fmtset f a) s J J.st (.format u.stamp false)) ∧
     (Begins (.fmtset f a) s J → f.toNat < 6 →
       TakesException (.fmtset f a) s J { code := .illfmt, detail := 0, aux := BitVec.ofNat 32 f.toNat }) ∧
     (Begins (.fmtset f a) s J → 6 ≤ f.toNat → fmtLegal x = false →
       TakesException (.fmtset f a) s J { code := .illfmt, detail := fmtStatus x, aux := BitVec.ofNat 32 f.toNat }) ∧
     (∀ part slot n c u, s.ctx? part slot = some c → c.updating.find? (fun v => v.n == n) = some u →
       (∀ g ∈ s.grids, u.stamp ∉ g.installing) →
       ∃ t, exec (.formatUpdateComplete part slot n) s = .next t ∧
         t.ctx? part slot = some { c with fmt := c.fmt.setIfInBounds (n - 6) u.word,
                                          updating := c.updating.filter (fun v => v.stamp != u.stamp) } ∧
         ∀ id w g, s.warp? id = some w → s.group? w.group = some g → g.part = part → g.ctx = slot →
           t.warp? id = some { w with frags := w.frags.map (Frag.afterUpdate u.stamp) }) ∧
     (∀ (c : Ctx) (u : Update) (core : Nat), c.updating = [u] → 6 ≤ u.n → u.n < 16 →
       ∀ n < 10, (c.replica core).getD n 0 = if n + 6 = u.n ∧ core ∈ u.cores then u.word else c.fmt.getD n 0)) ∧
  (∀ w : Word,
     let f := fun lo n => w.toNat / 2 ^ lo % 2 ^ n
     let width := ([4, 6, 8, 16, 32, 64] : List Nat).getD (f 29 3) 0
     (fmtStatus w).toNat < 16 ∧ (fmtLegal w = true ↔ (fmtStatus w).toNat = 0) ∧
     ((fmtStatus w).getLsbD 0 = true ↔ f 29 3 < 6 ∧ f 0 1 + f 1 4 + f 5 6 ≠ width) ∧
     ((fmtStatus w).getLsbD 1 = true ↔ 6 ≤ f 29 3 ∨ f 27 2 = 3 ∨ f 25 2 = 3 ∨ f 23 2 = 3 ∨ 52 < f 5 6 ∨ 11 < f 1 4 ∨
       (f 27 2 ≠ 0 ∧ f 25 2 = 0)) ∧
     ((fmtStatus w).getLsbD 2 = true ↔ f 29 3 = 4 ∧ w ≠ 0x8003FAF1) ∧
     ((fmtStatus w).getLsbD 3 = true ↔ f 29 3 = 5 ∧ w ≠ 0xA01FFE97))

/-- R85, R87, R88, R92, R98, R99: `VCVT` and `VCVTO` with legal entries and even pairs complete. Each lane of G converts its element;
`VCVTO` writes code 0 in the lanes whose magnitude exceeds the threshold of `s62` and names them in `k7`.

R95, R101: an illegal entry is `ILLFMT` with its status, fsrc before fdst; an odd register for a binary64 element, and for `VCVTS` an
entry that is not block-scaled or a second register that is odd or does not exist, are `ILLFMT` with status 0. These faults come
before the registers are made ready.

R100: `VCVTS` with legal entries and registers completes, and writes to bits 31:24 of each lane of G the scale code of its block,
from the elements of the lanes of G in the block: 16 lanes, 32, or 32 of each of two registers.
The model's own choices that it rests on: log entries 53, 69 (the entry that the record of a wrong second register names) and 80. -/
def Obligations.Conversions : Prop :=
  (∀ (s : State) (J : Issue) (d a : BitVec 7) (g f : BitVec 4),
     let src := Fmt.ofWord (J.ctx.entry f.toNat)
     let dst := Fmt.ofWord (J.ctx.entry g.toNat)
     let fz := J.ctx.cfg.getLsbD 0
     let val := fun L => src.laneValue fz (lane (J.vd a) L) (lane (J.view.getV (a.toNat + 1)) L)
     let one := fun L => convertLane dst J.h.m.rnd J.h.m.sat fz ((J.fpEnv 0).draw L 0) (val L) (lane (J.vd d) L)
     let out := fun L => match val L with
       | .nan .. => false
       | .inf _ => ltValue (binary32.decode (J.view.getS 62).toNat) (.inf false)
       | .fin _ m => ltValue (binary32.decode (J.view.getS 62).toNat) (.fin false m)
     let put := fun (x : Nat → Word × Word) =>
       let w := J.warp.writeV d.toNat J.mask (perLane (fun L => (x L).1))
       if dst.width = 64 then w.writeV (d.toNat + 1) J.mask (perLane (fun L => (x L).2)) else w
     let legal := fmtLegal (J.ctx.entry f.toNat) = true ∧ fmtLegal (J.ctx.entry g.toNat) = true
     let even := (src.width = 64 → a.toNat % 2 = 0) ∧ (dst.width = 64 → d.toNat % 2 = 0)
     (Begins (.vcvt d a g f) s J → legal → even →
       Completes (.vcvt d a g f) s J
         { st := J.st.setWarp (J.flagged (put (fun L => (one L).1)) (flagsOf (fun L => (one L).2) J.lanes)) }) ∧
     (Begins (.vcvto d a g f) s J → legal → even →
       Completes (.vcvto d a g f) s J
         { st := J.st.setWarp ((J.flagged (put (fun L => if out L then dst.intoLane (lane (J.vd d) L) 0 else (one L).1))
             (flagsOf (fun L => if out L then 0 else (one L).2) J.lanes)).setK 7 (maskOf (fun L => J.mask.getLsbD L && out L))) }) ∧
     (∀ (I K : Issue), s.issuer = some I →
       let src := Fmt.ofWord (K.ctx.entry f.toNat)
       let dst := Fmt.ofWord (K.ctx.entry g.toNat)
       let bad := fun (i : Instr) (status : Word) (n : BitVec 4) => I.checked i = .ok K → K.scheduled i = .ok K →
         TakesException i s (K.at K.st) { code := .illfmt, detail := status, aux := BitVec.ofNat 32 n.toNat }
       let legal := fmtLegal (K.ctx.entry f.toNat) = true ∧ fmtLegal (K.ctx.entry g.toNat) = true
       let odd := legal ∧ src.width = 64 ∧ a.toNat % 2 = 1
       let oddTo := legal ∧ ¬ (src.width = 64 ∧ a.toNat % 2 = 1) ∧ dst.width = 64 ∧ d.toNat % 2 = 1
       (∀ i ∈ [Instr.vcvt d a g f, Instr.vcvto d a g f, Instr.vcvts d a g f],
         (fmtLegal (K.ctx.entry f.toNat) = false → bad i (fmtStatus (K.ctx.entry f.toNat)) f) ∧
         (fmtLegal (K.ctx.entry f.toNat) = true → fmtLegal (K.ctx.entry g.toNat) = false →
           bad i (fmtStatus (K.ctx.entry g.toNat)) g) ∧
         (odd → bad i 0 f)) ∧
       (oddTo → bad (.vcvt d a g f) 0 g ∧ bad (.vcvto d a g f) 0 g) ∧
       (legal → ¬ (src.width = 64 ∧ a.toNat % 2 = 1) →
         dst.scaled = 0 ∨ (dst.block = 64 ∧ (a.toNat % 2 = 1 ∨ d.toNat % 2 = 1 ∨ 127 < a.toNat + (if src.width = 64 then 2 else 1) ∨
           127 < d.toNat + 1)) → bad (.vcvts d a g f) 0 g))) ∧
  (∀ (s : State) (J : Issue) (d a : BitVec 7) (g f : BitVec 4),
     let src := Fmt.ofWord (J.ctx.entry f.toNat)
     let dst := Fmt.ofWord (J.ctx.entry g.toNat)
     let n := if src.width = 64 then 2 else 1
     let val := fun r L => src.laneValue (J.ctx.cfg.getLsbD 0) (lane (J.view.getV (a.toNat + r)) L) (lane (J.view.getV (a.toNat + r + 1)) L)
     let part := fun r lo count => (((List.range count).map (fun j => lo + j)).filter (fun L => J.mask.getLsbD L)).map (val r)
     let blocks := if dst.block = 16 then [part 0 0 16, part 0 16 16] else if dst.block = 32 then [part 0 0 32] else [part 0 0 32 ++ part n 0 32]
     let zs := blocks.map (blockScale dst)
     Begins (.vcvts d a g f) s J → illegalEntry J.ctx f.toNat g.toNat = none → scaleChecks J.ctx d a g f = none →
     ∃ x : Lanes, (∀ L < 32, lane x L = BitVec.ofNat 32 ((zs.getD (L / 16 % zs.length) (0, 0)).1 * 2 ^ 24)) ∧
       let w := (J.warp.writeV d.toNat J.mask x).orFlags (zs.foldl (fun (fl : FpFlags) z => fl ||| z.2) 0)
       Completes (.vcvts d a g f) s J { st := J.put (if dst.block = 64 then w.writeV (d.toNat + 1) J.mask x else w) })

/-! ### Class 0xB: budgets and recipes (R116 to R149) -/

/-- R121, R125 to R127: `RGCLM` completes when nothing is to be claimed or the pool grants it at once, and waits otherwise; `RGGIV`
drops tagged registers down to the new budget and gives the rest back; `RGQRY` reads the counts.

R116 to R118, R131, R132, R139: a drop unmaps the names of its slot and makes it Dropped, and changes no other slot and no
other name; freeing and sealing leave a slot with its body alone or empty.

R133, R136 to R141: the recipe instructions. `RDEF` records the words after it in a slot that is not bound and goes on after them;
`RTAG` of a defined slot evaluates the body and binds it; `RSEAL` seals the tag of a register; `RDROP` drops it; `RFREE` empties the
slot. A body word that is no instruction raises `UD`, and one that no body may hold, and an empty slot, `RCPILL`.
The model's own choices that it rests on: log entries 19, 55, 56. -/
def Obligations.BudgetsAndRecipes : Prop :=
  (∀ (s s' : State) (J : Issue) (d : BitVec 6) (n : BitVec 5),
     let want := min n.toNat (16 - J.warp.budget)
     (Begins (.rgclm d n) s J → want = 0 →
       Completes (.rgclm d n) s J { st := J.put (J.warp.setS d.toNat (BitVec.ofNat 32 J.warp.budget)) }) ∧
     (Begins (.rgclm d n) s J → want ≠ 0 → J.st.tryClaim J.warp want = (s', true) →
       Completes (.rgclm d n) s J
         { st := s'.setWarp { J.warp.setS d.toNat (BitVec.ofNat 32 (J.warp.budget + want)) with budget := J.warp.budget + want } }) ∧
     (Begins (.rgclm d n) s J → want ≠ 0 → J.st.tryClaim J.warp want = (s', false) →
       Waits (.rgclm d n) s J { s' with fresh := s'.fresh + 1 } (.claim want (some d.toNat) s'.fresh none [])) ∧
     (Begins (.rggiv d n) s J →
       let target := max 1 (J.warp.budget - n.toNat)
       let w := dropDown 16 J.warp (8 * target)
       let b := max target ((w.heldWith [] + 7) / 8)
       Completes (.rggiv d n) s J
         { st := (J.put { w.setS d.toNat (BitVec.ofNat 32 b) with budget := b }).grantOnCore J.warp.core }) ∧
     (Begins (.rgqry d) s J → ∃ x : Word, Completes (.rgqry d) s J { st := J.put (J.warp.setS d.toNat x) } ∧
       (J.warp.budget < 256 → J.warp.held < 256 → J.warp.taggedHeld < 256 →
         x.toNat % 256 = J.warp.budget ∧ x.toNat / 2 ^ 8 % 256 = J.warp.held ∧ x.toNat / 2 ^ 16 % 256 = J.warp.taggedHeld ∧
         x.toNat / 2 ^ 24 = min 255 (J.st.unreserved J.group J.warp.pos)))) ∧
  (∀ (w : Warp) (n m : Nat), n < 16 →
     (w.dropSlot n).slot? n = { w.slot? n with state := .dropped } ∧ (m ≠ n → (w.dropSlot n).slot? m = w.slot? m) ∧
     (∀ v, (w.dropSlot n).mapped v = (w.mapped v && !(w.slot? n).names.contains v)) ∧
     (∀ v, v ∉ (w.slot? n).names → (w.dropSlot n).getV v = w.getV v) ∧
     (w.dropSlot n).s = w.s ∧ (w.dropSlot n).k = w.k ∧ (w.dropSlot n).budget = w.budget ∧
     (∀ x, (w.setSlot n x).slot? n = x) ∧ (∀ x, m ≠ n → (w.setSlot n x).slot? m = w.slot? m)) ∧
  (∀ (s s₁ s₂ : State) (J : Issue) (c : BitVec 2) (x : BitVec 4) (d : BitVec 7),
     let K := J.at s₁
     (Begins (.rdef c x) s J → J.frag.skip = J.frag.pc + BitVec.ofNat 64 (4 * (c.toNat + 2))) ∧
     (∀ body, Begins (.rdef c x) s J → J.sealed x.toNat = .ok s₁ →
       K.fetchWords (K.frag.pc + 4) (c.toNat + 1) = .ok body → bodyFault body = none →
       let read := (List.range (c.toNat + 1)).foldl (fun u n => K.fetchTraffic u (K.frag.pc + BitVec.ofNat 64 (4 * (n + 1)))) s₁
       Completes (.rdef c x) s J
         { st := read.setWarp (K.warp.setSlot x.toNat { Slot.none with state := .defined, body := body }), flow := .jump K.frag.skip }) ∧
     (∀ body, Begins (.rdef c x) s J → J.sealed x.toNat = .ok s₁ → K.fetchWords (K.frag.pc + 4) (c.toNat + 1) = .ok body →
       (∀ k, bodyFault body = some (.inr k) → TakesExceptionFrom (.rdef c x) s J s₁
         { code := .rcpill, detail := BitVec.ofNat 32 k, aux := BitVec.ofNat 32 x.toNat }) ∧
       (∀ w, bodyFault body = some (.inl w) → TakesExceptionFrom (.rdef c x) s J s₁ { code := .ud, detail := w })) ∧
     (Begins (.rtag d x) s J → (J.warp.slot? x.toNat).state = .empty →
       TakesExceptionFrom (.rtag d x) s J J.st { code := .rcpill, detail := 4, aux := BitVec.ofNat 32 x.toNat }) ∧
     (∀ T s₃ t fl done, Begins (.rtag d x) s J → (J.warp.slot? x.toNat).state ≠ .empty → J.sealed x.toNat = .ok s₁ →
       (J.at s₁).tagChecks d x.toNat = .ok T →
       replayReads J.agent J.ref.warp ((J.at s₁).warp.taggedAmong T.inputs) s₁ T.inputs = .ok s₃ →
       evalWords { agent := J.agent, ctx := J.ctx, warp := (J.at s₃).view, mask := J.active, fz := J.ctx.cfg.getLsbD 0 } s₃
         { s := [], v := [] } 0 T.ops = .ok (s₂, t, fl) →
       (J.at s₂).tag d x.toNat T (resultOf t J.active T.ops) fl = .ok done →
       Completes (.rtag d x) s J done) ∧
     (Begins (.rseal d) s J → J.warp.tagOf d.toNat = none → Completes (.rseal d) s J { st := J.st }) ∧
     (∀ n, Begins (.rseal d) s J → J.warp.tagOf d.toNat = some n → sealSlot J.agent J.ref.warp [] J.st n = .ok s₁ →
       Completes (.rseal d) s J { st := s₁ }) ∧
     (Begins (.rdrop d) s J → J.warp.tagOf d.toNat = none → Completes (.rdrop d) s J { st := J.st }) ∧
     (∀ n, Begins (.rdrop d) s J → J.warp.tagOf d.toNat = some n →
       Completes (.rdrop d) s J
         { st := if (J.warp.slot? n).state = .live then J.put (J.warp.dropSlot n) else J.st }) ∧
     (Begins (.rfree x) s J → J.sealed x.toNat = .ok s₁ →
       Completes (.rfree x) s J { st := s₁.setWarp ((J.at s₁).warp.setSlot x.toNat Slot.none) }))

/-! ### Class 0xA: queues (R327 to R341) -/

/-- R328, R335, R337: what taking a slot does to an instance and to the registers. The slot at RIX mod DEPTH becomes Full with the handle,
or Reserved with its number in the scalar, and the slot at PIX mod DEPTH becomes Taken with its word and number in two scalars; the
count goes on by one modulo 2^32, and every other slot and count is as before. -/
def Obligations.QueueSlotsMove : Prop :=
  ∀ (m : List Host.Cell) (base depth d n : Nat) (h : Word) (w : Warp), 0 < depth → depth ≤ 64 → n < 64 →
    let r := ringAt m base
    let i := r.rix % depth
    let j := r.pix % depth
    let out := fun (op : QueueOp) => ringAt (op.act m base depth).1 base
    let regs := fun (op : QueueOp) => (op.act m base depth).2 w
    (out (.push h)).slot n = (if n = i then 2 else r.slot n) ∧ (out (.push h)).rix = (r.rix + 1) % 2 ^ 32 ∧
    (out (.push h)).pix = r.pix ∧ memNat ((QueueOp.push h).act m base depth).1 (base + 64 + 4 * i) 4 = h.toNat ∧
    regs (.push h) = w ∧
    (out (.reserve d)).slot n = (if n = i then 1 else r.slot n) ∧ (out (.reserve d)).rix = (r.rix + 1) % 2 ^ 32 ∧
    (out (.reserve d)).pix = r.pix ∧ regs (.reserve d) = w.setS d (BitVec.ofNat 32 i) ∧
    (out (.pop d)).slot n = (if n = j then 3 else r.slot n) ∧ (out (.pop d)).pix = (r.pix + 1) % 2 ^ 32 ∧
    (out (.pop d)).rix = r.rix ∧
    regs (.pop d) = (w.setS d (BitVec.ofNat 32 (memNat m (base + 64 + 4 * j) 4))).setS (d + 1) (BitVec.ofNat 32 j)

/-- R335 to R340: the queue instructions complete when their checks pass and their slot is ready, and a push, reservation or pop whose
slot is not ready waits in the line of its role, or faults with cause 6 when no warp is left to make it ready. `QTRY` then gives the
number of no slot.

R334: the checks of a queue instruction in their order: a queue that the kernel does not declare, a role outside the declared ones,
a malformed image; none of them otherwise. -/
def Obligations.QueuesMoveWork : Prop :=
  (∀ (s s₁ : State) (J : Issue) (n : BitVec 4) (a : BitVec 6),
     let q := n.toNat
     let depth := queueDepth (J.grid.kd.queueCfg q)
     let base := J.grid.kd.queueBase q
     let K : Issue := { J.at s₁ with view := J.view }
     let h := J.view.getS a.toNat
     let sane := fun (x : Word) => decide (x.toNat % 2 ^ 17 * 64 < J.grid.kd.sp * 65536)
     let took := fun (I : Issue) (op : QueueOp) =>
       let r := op.act I.queueSpad base depth
       (I.st.setWarp (r.2 I.warp)).writeSpad I.group.uid I.warp.pos r.1
     let moved := fun (slot x : Nat) (m : List Host.Cell) =>
       K.st.writeSpad K.group.uid K.warp.pos (putRing m base ((ringAt m base).setSlot slot x))
     J.release J.st J.group.scope = .ok s₁ →
     (Begins (.qpush n a) s J → J.queueCheck q [8] = none → sane h = true →
       (QueueOp.push h).ready (K.queueRing q) depth = true → Completes (.qpush n a) s J { st := took K (.push h) }) ∧
     (Begins (.qpush n a) s J → J.queueCheck q [8] = none → sane h = true →
       (QueueOp.push h).ready (K.queueRing q) depth = false → K.st.orphaned K.group.uid K.warp.pos q true = false →
       Waits (.qpush n a) s J { K.st with fresh := K.st.fresh + 1 } (.queue q (.push h) K.st.fresh)) ∧
     (Begins (.qrsv n a) s J → J.queueCheck q [8] = none → (QueueOp.reserve a.toNat).ready (J.queueRing q) depth = false →
       J.st.orphaned J.group.uid J.warp.pos q true = false →
       Waits (.qrsv n a) s J { J.st with fresh := J.st.fresh + 1 } (.queue q (.reserve a.toNat) J.st.fresh)) ∧
     (Begins (.qrsv n a) s J → J.queueCheck q [8] = none → (QueueOp.reserve a.toNat).ready (J.queueRing q) depth = false →
       J.st.orphaned J.group.uid J.warp.pos q true = true →
       TakesException (.qrsv n a) s J { code := .queue, detail := 6, aux := BitVec.ofNat 32 q }) ∧
     (Begins (.qpop n a) s J → J.queueCheck q [11] = none → (QueueOp.pop a.toNat).ready (J.queueRing q) depth = false →
       J.st.orphaned J.group.uid J.warp.pos q false = true →
       TakesException (.qpop n a) s J { code := .queue, detail := 6, aux := BitVec.ofNat 32 q }) ∧
     (Begins (.qpop n a) s J → J.queueCheck q [11] = none → (QueueOp.pop a.toNat).ready (J.queueRing q) depth = true →
       Completes (.qpop n a) s J { st := took J (.pop a.toNat) }) ∧
     (Begins (.qtry n a) s J → J.queueCheck q [11] = none → (QueueOp.pop a.toNat).ready (J.queueRing q) depth = true →
       Completes (.qtry n a) s J { st := took J (.pop a.toNat) }) ∧
     (Begins (.qtry n a) s J → J.queueCheck q [11] = none → (QueueOp.pop a.toNat).ready (J.queueRing q) depth = false →
       Completes (.qtry n a) s J { st := J.put ((J.warp.setS a.toNat 0).setS (a.toNat + 1) 0xFFFFFFFF) }) ∧
     (Begins (.qrsv n a) s J → J.queueCheck q [8] = none → (QueueOp.reserve a.toNat).ready (J.queueRing q) depth = true →
       Completes (.qrsv n a) s J { st := took J (.reserve a.toNat) }) ∧
     (Begins (.qcmt n a) s J → J.queueCheck q [8] = none → (J.view.getS (a.toNat + 1)).toNat < depth →
       (J.queueRing q).slot (J.view.getS (a.toNat + 1)).toNat = 1 → sane h = true →
       Completes (.qcmt n a) s J
         { st := moved (J.view.getS (a.toNat + 1)).toNat 2
             (memSetNat K.queueSpad (base + 64 + 4 * (J.view.getS (a.toNat + 1)).toNat) 4 h.toNat) }) ∧
     (Begins (.qrel n a) s J → J.queueCheck q [11] = none → h.toNat < depth → (J.queueRing q).slot h.toNat = 3 →
       Completes (.qrel n a) s J { st := moved h.toNat 0 K.queueSpad }) ∧
     (Begins (.qlen n a) s J → J.queueCheck q [8, 11] = none →
       let c := fun x => ((List.range depth).filter (fun i => (J.queueRing q).slot i == x)).length
       Completes (.qlen n a) s J { st := J.put (J.warp.setS a.toNat
         (BitVec.ofNat 32 (c 0 * 2 ^ 24 + c 1 * 2 ^ 16 + c 2 * 2 ^ 8 + c 3))) }) ∧
     (Begins (.qpop n a) s J → J.queueCheck q [11] = none → (QueueOp.pop a.toNat).ready (J.queueRing q) depth = false →
       J.st.orphaned J.group.uid J.warp.pos q false = false →
       Waits (.qpop n a) s J { J.st with fresh := J.st.fresh + 1 } (.queue q (.pop a.toNat) J.st.fresh))) ∧
  (∀ (J : Issue) (q : Nat) (ask : List Nat),
     let cfg := (J.grid.kd.queues.getD q 0).toNat
     let mine := ask.any (fun b => cfg.testBit (b + roleNat J.warp.role))
     let bad := ringMalformed J.queueSpad (J.queueBase q) cfg
     let fault := fun (c : Nat) => some (Stop.trap { code := .queue, detail := BitVec.ofNat 32 c, aux := BitVec.ofNat 32 q })
     (cfg = 0 → J.queueCheck q ask = fault 2) ∧ (cfg ≠ 0 → mine = false → J.queueCheck q ask = fault 1) ∧
     (cfg ≠ 0 → mine = true → bad = true → J.queueCheck q ask = fault 7) ∧
     (cfg ≠ 0 → mine = true → bad = false → J.queueCheck q ask = none))

/-! ### Class 0xA: barriers (R349 to R363) -/

/-- R355: the completion test of a barrier. With every member arrived and the bytes expected received, the phase ends: PSEQ goes on
by one, pending members join, and the counts begin anew; with fewer arrivals, or bytes outstanding, nothing changes; with more bytes
received than expected, the barrier is Broken.
The model's own choices that it rests on: log entry 47. -/
def Obligations.BarrierPhases : Prop :=
  ∀ (s : State) (g : Group) (b : Nat), s.group? g.uid = some g → 0 < g.span → b < 16 → g.isBroken b = false →
    let x := s.barOf g.uid b
    let t := s.testBarrier g.uid b
    (x.arr ≠ x.mem → t = s) ∧ (x.arr = x.mem → x.rcv < x.exp → t = s) ∧
    (x.arr = x.mem → x.rcv = x.exp →
      t.barOf g.uid b = { x with pseq := (x.pseq + 1) % 2 ^ 32, mem := (x.mem + x.join) % 2 ^ 16, join := 0, arr := 0,
                                 exp := 0, rcv := 0 } ∧
      ∀ w ∈ t.warps, w.group = g.uid → w.la.getD b 0 = 0 ∧ w.pending.getLsbD b = false) ∧
    (x.arr = x.mem → x.exp < x.rcv → (t.group? g.uid).map (fun g => g.isBroken b) = some true)

/-- R354, R357 to R363: the barrier instructions, where the checks pass. An arrival is a release at the group's scope, adds the bytes,
records the lanes and tests for completion; a wait completes when the phase of its parity is over and waits otherwise; `BSYNC` does
both, with the parity of its arrival, which it makes once; `BPHASE` reads the phase; `BINIT` of a barrier that is not busy sets its roles and begins a phase.
The model's own choices that it rests on: log entries 46, 59. -/
def Obligations.BarrierInstructions : Prop :=
  ∀ (s s₁ : State) (J : Issue) (b : BitVec 4) (a : BitVec 6),
    let n := b.toNat
    let x := J.view.getS a.toNat
    let sound := J.barrierCheck n = none ∧ J.group.isBroken n = false
    let arrives := sound ∧ J.outsideRoles n = false ∧ J.warp.pending.getLsbD n = false ∧ J.doubleArrival n = false ∧
      J.release J.st J.group.scope = .ok s₁
    let arrived := fun (s : State) => (s.arrive J.ref.warp n J.frag.lanes).testBarrier J.group.uid n
    let K := J.at (arrived s₁)
    let phase := (J.st.barOf J.group.uid n).pseq
    let par := J.warp.wpar.getLsbD n
    (Begins (.barv b) s J → arrives → Completes (.barv b) s J { st := arrived s₁ }) ∧
    (Begins (.barx b a 0#1) s J → arrives →
      Completes (.barx b a 0#1) s J { st := arrived (if x.toNat = 0 then s₁ else s₁.expectBytes J.group.uid n x.toNat) }) ∧
    (Begins (.barx b a 1#1) s J → sound → J.release J.st J.group.scope = .ok s₁ →
      Completes (.barx b a 1#1) s J { st := (s₁.expectBytes J.group.uid n x.toNat).testBarrier J.group.uid n }) ∧
    (Begins (.barw b a 1#1) s J → sound → phase.testBit 0 ≠ par →
      Completes (.barw b a 1#1) s J { st := J.put (J.warp.setPar n (!par)) }) ∧
    (Begins (.barw b a 1#1) s J → sound → phase.testBit 0 = par →
      Waits (.barw b a 1#1) s J (J.put (J.warp.setFrag { J.frag with arrived := none }))
        (.barrier n par true false)) ∧
    (Begins (.barw b a 0#1) s J → sound → phase.testBit 0 ≠ x.getLsbD 0 → Completes (.barw b a 0#1) s J { st := J.st }) ∧
    (Begins (.barw b a 0#1) s J → sound → phase.testBit 0 = x.getLsbD 0 →
      Waits (.barw b a 0#1) s J J.st (.barrier n (x.getLsbD 0) false false)) ∧
    (Begins (.bsync b) s J → J.frag.arrived = none → arrives → K.group.isBroken n = false →
      let now := (K.st.barOf K.group.uid n).pseq.testBit 0
      (now ≠ par → Completes (.bsync b) s J { st := K.put (K.warp.setPar n (!par)) }) ∧
      (now = par → Waits (.bsync b) s J (K.put (K.warp.setFrag { K.frag with arrived := some J.warp.wpar })) (.barrier n par true true))) ∧
    (∀ wpar, Begins (.bsync b) s J → J.frag.arrived = some wpar → sound → J.outsideRoles n = false →
      let own := wpar.getLsbD n
      (phase.testBit 0 ≠ own → Completes (.bsync b) s J { st := J.put (J.warp.setPar n (!own)) }) ∧
      (phase.testBit 0 = own → Waits (.bsync b) s J (J.put (J.warp.setFrag { J.frag with arrived := some wpar })) (.barrier n own true true))) ∧
    (Begins (.bphase b a) s J → J.barrierCheck n = none →
      Completes (.bphase b a) s J { st := J.put ((J.warp.setS a.toNat (BitVec.ofNat 32 phase)).setS (a.toNat + 1)
        (BitVec.ofNat 32 ((if J.warp.arrivedAt n then 2 else 0) + (if par then 1 else 0)))) }) ∧
    (Begins (.binit b a) s J → J.barrierCheck n = none → J.st.barBusy J.group.uid n = false → x ≠ 0 → x.toNat < 8 →
      Completes (.binit b a) s J { st := (J.st.initBarrier J.group.uid n (x.setWidth 3)).testBarrier J.group.uid n }) ∧
    (Begins (.barv b) s J → J.grid.kd.barrierCfg n = 0 → TakesException (.barv b) s J { code := .barrier, detail := 1, aux := BitVec.ofNat 32 n })

/-! ### Class 0xA: mailboxes, elastic groups, launches and signals (R343 to R348, R371 to R375, R433 to R435) -/

/-- R345, R347: a send is a release at system scope whose status goes to its scalar, and a message is queued when it is accepted. A
receive takes the oldest receivable message into four scalars, or gives its status.
The model's own choices that it rests on: log entry 84 (an accepted message to the other die, and a receive from it, wait while class 3
of link 0 cannot carry them with their answer, and otherwise cross in the same step; a refused one is answered at once). -/
def Obligations.Mailboxes : Prop :=
  ∀ (s s₁ : State) (J : Issue) (a : BitVec 6) (m : BitVec 8),
    let st := J.sendStatus s₁ m.toNat
    let status := fun (x : Nat) => J.put (J.warp.setQuad a.toNat (BitVec.ofNat 32 (x * 2 ^ 30)) 0 0 0)
    let open_ := J.st.feature 4 = true ∧ J.st.accAllows 84 J.agent.master m.toNat false = true
    let die := dieOf J.warp.core
    let at_ := fun (box : Mailbox) => dieKey (box.home / 32)
    let got := fun (box : Mailbox) (x₀ x₁ x₂ x₃ : Word) (rest : List MboxMsg) =>
      ((J.st.exchange J.sender 3 (at_ box)).setWarp (J.warp.setQuad a.toNat x₀ x₁ x₂ x₃)).setMbox { box with msgs := rest }
    (Begins (.mbsend a m) s J → J.release J.st 4 = .ok s₁ → st ≠ 0 →
      Completes (.mbsend a m) s J { st := s₁.setWarp (J.warp.setS a.toNat (BitVec.ofNat 32 st)) }) ∧
    (∀ box, Begins (.mbsend a m) s J → J.release J.st 4 = .ok s₁ → st = 0 → s₁.mbox? m.toNat = some box →
      s₁.exchanges die 3 (at_ box) = false → Waits (.mbsend a m) s J s₁ (.crossing die 3 (at_ box))) ∧
    (∀ box, Begins (.mbsend a m) s J → J.release J.st 4 = .ok s₁ → st = 0 → s₁.mbox? m.toNat = some box →
      s₁.exchanges die 3 (at_ box) = true →
      Completes (.mbsend a m) s J
        { st := ((s₁.exchange J.sender 3 (at_ box)).setWarp (J.warp.setS a.toNat 0)).setMbox { box with msgs := box.msgs ++ [
            { tag := (J.view.getS a.toNat).setWidth 16, w1 := J.view.getS (a.toNat + 1), w2 := J.view.getS (a.toNat + 2),
              w3 := J.view.getS (a.toNat + 3), part := J.group.part, ctx := J.group.ctx, since := s₁.ticks,
              receivable := false }] } }) ∧
    (Begins (.mbrecv a m) s J → J.st.feature 4 = false → Completes (.mbrecv a m) s J { st := status 3 }) ∧
    (Begins (.mbrecv a m) s J → J.st.feature 4 = true → J.st.accAllows 84 J.agent.master m.toNat false = false →
      Completes (.mbrecv a m) s J { st := status 2 }) ∧
    (Begins (.mbrecv a m) s J → open_ → (∀ box, J.st.mbox? m.toNat = some box → box.en = false) →
      Completes (.mbrecv a m) s J { st := status 3 }) ∧
    (∀ box, Begins (.mbrecv a m) s J → open_ → J.st.mbox? m.toNat = some box → box.en = true →
      (J.st.exchanges die 3 (at_ box) = false → Waits (.mbrecv a m) s J J.st (.crossing die 3 (at_ box))) ∧
      (J.st.exchanges die 3 (at_ box) = true →
        ((∀ x ∈ box.msgs.head?, x.receivable = false) → Completes (.mbrecv a m) s J { st := got box 0 0 0 0 box.msgs }) ∧
        (∀ x rest, box.msgs = x :: rest → x.receivable = true → Completes (.mbrecv a m) s J
          { st := got box (BitVec.ofNat 32 (2 ^ 30 + x.part * 2 ^ 16 + x.tag.toNat)) x.w1 x.w2 x.w3 rest })))

/-- R372 to R375: `GGROW` accepts as many warps as the role's maximum leaves, or cancels what is pending; `GLEAVE` waits for what the
warp has issued, and is a release that ends the warp; `GINFO` reads the counts of the group.

R433 to R435: a signal addition or exchange on device memory gives the old value; a signal wait completes with the value once it is
at least the one asked for, or at once when it only tests; a launch writes the packet to the ring when its status is zero, and status
and index to two scalars.
The model's own choices that it rests on: log entries 16 and 84 (the packet's write that crosses link 0). -/
def Obligations.GroupsAndLaunches : Prop :=
  (∀ (s s₁ : State) (J : Issue) (d : BitVec 6) (r : BitVec 2) (n : BitVec 8) (e : BitVec 3),
     let pend := J.group.pend.getD r.toNat 0
     let room := (J.grid.kd.warps.getD r.toNat (0, 0)).2 - J.st.liveOf J.group r.toNat - pend
     let acc := if J.mayGrow r.toNat then min n.toNat room else 0
     let three := fun (f : Nat → Nat) => BitVec.ofNat 32 (f 0 + f 1 * 2 ^ 8 + f 2 * 2 ^ 16)
     (Begins (.ggrow d 0#1 r n) s J →
       Completes (.ggrow d 0#1 r n) s J
         { st := (J.put (J.warp.setS d.toNat (BitVec.ofNat 32 ((pend + acc) * 2 ^ 8 + acc)))).setGroup
             { J.group with pend := setAt J.group.pend r.toNat (pend + acc) } }) ∧
     (Begins (.ggrow d 1#1 r n) s J →
       Completes (.ggrow d 1#1 r n) s J
         { st := ((J.put (J.warp.setS d.toNat (BitVec.ofNat 32 pend))).setGroup
             { J.group with pend := setAt J.group.pend r.toNat 0 }).faultOrphans J.group.uid }) ∧
     (Begins .gleave s J → J.warp.othersAct J.ref.frag = false → J.release J.st J.group.scope = .ok s₁ →
       Completes .gleave s J { st := s₁.endWarp J.ref.warp, flow := .done }) ∧
     (Begins .gleave s J → J.warp.othersAct J.ref.frag = true → Waits .gleave s J J.st .leaving) ∧
     (Begins (.ginfo d e) s J → ∃ x, Completes (.ginfo d e) s J { st := J.put (J.warp.setS d.toNat x) } ∧
       (e = 0#3 → x = three (J.st.liveOf J.group)) ∧ (e = 1#3 → x = three (fun r => J.group.pend.getD r 0)) ∧
       (e = 2#3 → x = three (fun r => (J.grid.kd.warps.getD r (0, 0)).2)) ∧ (e = 3#3 → x = J.group.evct) ∧
       (e = 4#3 → x = BitVec.ofNat 32 J.group.spanMap))) ∧
  (∀ (s s₁ s₂ s₃ : State) (J : Issue) (a n : BitVec 6) (e : BitVec 1),
     let addr := J.view.getPair a.toNat
     let sig := J.pointer addr.toNat 8 true
     let look := J.pointer addr.toNat 8 false
     let reqs := (performLanes sig).map (fun p =>
       { lane := p.1, key := p.2.2, size := 8, op := if e = 1#1 then 9 else 0, b := J.view.getPair (a.toNat + 2), cmp := none,
         va := p.2.1 : AtomReq })
     let K : Issue := { J.at s₁ with view := J.view }
     let src := K.pointer (vaMask addr.toNat) 64 false
     let p := BitVec.ofNat 512 (laneNat (s₂.loadLanes K.agent 64 src) 0)
     let q := K.ctx.queueOr n.toNat
     let K₂ : Issue := { K.at s₂ with view := J.view }
     let ring := K₂.pointer (q.entryAt q.wptr.toNat) 64 true
     let die := dieOf K₂.warp.core
     let told := fun (s : State) (st i : Word) => s.setWarp ((((K₂.at s).warp).setS (a.toNat + 2) st).setS (a.toNat + 3) i)
     (Begins (.sigadd a e) s J → addr.toNat < 2 ^ 57 → addr.toNat % 8 = 0 → J.st.settle J.agent sig J.visitAtomic true false = .ok s₁ →
       anyAway (dieOf J.warp.core) ((performLanes sig).map (fun p => p.2.2)) = false →
       J.release s₁ (J.atomicScope J.allLanes reqs) = .ok s₂ → s₂.atomicAfter J.warp.core reqs = .ok s₃ →
       let r := J.performAtomics s₃ J.allLanes reqs
       Completes (.sigadd a e) s J
         { st := r.1.setWarp ((J.at r.1).warp.setPair (a.toNat + 2) (BitVec.ofNat 64 (laneNat r.2 0))) }) ∧
     (Begins (.sigwait a e) s J → addr.toNat < 2 ^ 57 → addr.toNat % 8 = 0 →
       J.st.settle J.agent look J.visitLoad false true = .ok s₁ →
       let v := laneNat (s₁.loadLanes J.agent 8 look) 0
       ((J.view.getPair (a.toNat + 2)).toNat ≤ v ∨ e = 1#1 →
         Completes (.sigwait a e) s J { st := s₁.setWarp ((J.at s₁).warp.setPair (a.toNat + 2) (BitVec.ofNat 64 v)) }) ∧
       (v < (J.view.getPair (a.toNat + 2)).toNat → e = 0#1 →
         Waits (.sigwait a e) s J s₁ (.signal addr (J.view.getPair (a.toNat + 2))))) ∧
     (Begins (.klaunch a n) s J → addr.toNat % 64 = 0 → J.release J.st 3 = .ok s₁ →
       s₁.settle K.agent src { core := K.warp.core, scope := 0, promotes := false } false true = .ok s₂ →
       (launchStatus q p ≠ 0 → Completes (.klaunch a n) s J { st := told s₂ (BitVec.ofNat 32 (launchStatus q p)) 0 }) ∧
       (launchStatus q p = 0 → s₂.settle K₂.agent ring { core := K₂.warp.core, scope := 3, promotes := false } true false = .ok s₃ →
         (∀ l ∈ performLanes ring, s₃.exchanges die 1 l.2.2 = true) → ∀ c,
         let put := (performLanes ring).foldl (fun (s : State) l =>
           { s.exchange K₂.sender 1 l.2.2 with mem := memWrites s.mem l.2.2 (bytesLE 64 p.toNat) }) s₃
         put.ctxOf K₂.group = some c →
         Completes (.klaunch a n) s J { st := told (put.setCtx (c.putQueue { q with wptr := q.wptr + 1 })) 0 q.wptr }) ∧
       (∀ l, launchStatus q p = 0 →
         s₂.settle K₂.agent ring { core := K₂.warp.core, scope := 3, promotes := false } true false = .ok s₃ →
         (performLanes ring).find? (fun l => !s₃.exchanges die 1 l.2.2) = some l →
         Waits (.klaunch a n) s J s₃ (.crossing die 1 l.2.2))) ∧
     (Begins (.sigadd a e) s J → addr.toNat < 2 ^ 57 → addr.toNat % 8 ≠ 0 → TakesException (.sigadd a e) s J { code := .align, addr := addr }))

/-! ### Class 0x8: the tile engine (R275 to R301) -/

namespace Sys2Proof.Machine

/-- The state in which an operation has joined the engines of the cores at some span positions (R278). -/
def Issue.withTileOp (J : Issue) (t gang : Nat) (ps : List Nat) (kind : TileKind) : State :=
  { J.st with
    engines := J.st.engines ++ [{ uid := J.st.fresh, warp := J.ref.warp, group := J.group.uid, from_ := J.warp.core, t := t,
                                  gang := gang, kind := kind, members := ps.map (fun p => (J.group.coreAt p, p)) }]
    fresh := J.st.fresh + 1 }

/-- Every engine at some span positions has room for one more operation (R278). -/
def Issue.roomFor (J : Issue) (ps : List Nat) : Prop := ∀ p ∈ ps, (J.st.engineOps (J.group.coreAt p)).length < 16

end Sys2Proof.Machine

/-- R277 to R285, R291 to R295: a tile instruction whose checks pass completes at once and leaves its operation queued on the engine of
every part: the multiplies with their latched entries, zero and fill, scale, softmax rescale, side write and drain.

R277, R287 to R289, R294, R297, R298, R301: the tile instructions that wait or read. `TWAIT`, `TSIDER` and `TAMAXR` wait until the
operations that they await are complete; `TSIDER` reads MX and SM, or AL, of a row; `TAMAXR` reads AMAX, where no drain is in flight;
`TGANG` queues its binding and waits for it; `TFENCE` completes; a tile that the kernel does not declare raises `BOUNDS` cause 4.

R278, R299: an operation that is the oldest on every engine that performs it completes: it leaves the engines, and the tiles of its
group change by its effect. No other operation leaves.
The model's own choices that it rests on: log entries 24, 25, 30, 104 (the queue entries that `TGANG` takes) and 116 (the row of a ganged tile). -/
def Obligations.TileInstructions : Prop :=
  (∀ (s : State) (J : Issue) (t : BitVec 4) (a b : BitVec 6) (c : BitVec 3) (N : Named), J.tileNamed t.toNat = some N →
     let G := J.gangOf N.word
     let x := J.view.getS a.toNat
     let y := J.view.getS b.toNat
     let value : Dword := if N.tile.acc = 2 then J.view.getPair a.toNat else x.setWidth 64
     let queued := fun kind => J.withTileOp t.toNat N.word G.parts kind
     let ready := J.roomFor G.parts ∧ J.outsideGang N.word = false
     let A := Operand.of (J.view.getPair a.toNat)
     let B := Operand.of (J.view.getPair b.toNat)
     let mma := fun (pa pb : Option Nat) => TileKind.mma (J.view.getPair a.toNat) (J.view.getPair b.toNat) (J.ctx.entry A.fmt)
       (J.ctx.entry B.fmt) (c.toNat % 4) (c.toNat.testBit 2) pa pb
     let all := (List.range J.group.span).filter (fun p => (A.mcm ||| B.mcm).testBit p)
     let S := J.tileNamed (x.toNat % 16)
     (Begins (.tmma t a b c) s J → N.word = 0 → J.roomFor [J.warp.pos] → J.multiplyCheck N A B (c.toNat.testBit 2) false = none →
       Completes (.tmma t a b c) s J
         { st := J.withTileOp t.toNat 0 [J.warp.pos] (mma (some J.warp.pos) (some J.warp.pos)) }) ∧
     (Begins (.tmma t a b c) s J → N.word ≠ 0 → J.roomFor G.parts → J.multiplyCheck N A B (c.toNat.testBit 2) false = none →
       Completes (.tmma t a b c) s J { st := queued (mma (some J.warp.pos) (some J.warp.pos)) }) ∧
     (Begins (.tmmax t a b c) s J → N.word = 0 → A.mcm ||| B.mcm ≠ 0 → J.roomFor all →
       J.multiplyCheck N A B (c.toNat.testBit 2) true = none →
       Completes (.tmmax t a b c) s J
         { st := J.withTileOp t.toNat 0 all
             (mma (if B.mcm ≠ 0 then none else some A.src) (if A.mcm ≠ 0 then none else some B.src)) }) ∧
     (Begins (.tmmax t a b c) s J → A.mcm = 0 → B.mcm = 0 → J.multiplyCheck N A B (c.toNat.testBit 2) true = none →
       let ps := if N.word = 0 then [J.warp.pos] else G.parts
       J.roomFor ps →
       Completes (.tmmax t a b c) s J { st := J.withTileOp t.toNat N.word ps (mma (some A.src) (some B.src)) }) ∧
     (Begins (.tzero t) s J → ready → Completes (.tzero t) s J { st := queued .zero }) ∧
     (Begins (.tfill t a) s J → ready → Completes (.tfill t a) s J { st := queued (.fill value) }) ∧
     (Begins (.tscale t a b) s J → ready → y = 0 →
       Completes (.tscale t a b) s J
         { st := queued (.scale value 0 ((J.view.getS (b.toNat + 1)).toNat * 64) J.warp.pos) }) ∧
     (Begins (.tscale t a b) s J → ready → y = 1 ∨ y = 2 →
       let n := if y = 1 then G.gr * N.tile.rows else G.gc * N.tile.cols
       (J.view.getS (b.toNat + 1)).toNat * 64 + n * N.tile.width ≤ J.grid.kd.sp * 65536 →
       Completes (.tscale t a b) s J
         { st := queued (.scale value y.toNat ((J.view.getS (b.toNat + 1)).toNat * 64) J.warp.pos) }) ∧
     (Begins (.tsidew t a b) s J → ready → y = 0xFFFFFFFF ∨ y.toNat < G.gr * N.tile.rows →
       Completes (.tsidew t a b) s J { st := queued (.sidew x (J.view.getS (a.toNat + 1)) y) }) ∧
     (∀ M, Begins (.tsmx t a b) s J → S = some M →
       let H := J.gangOf M.word
       let ps := G.parts ++ H.parts.filter (fun p => !G.parts.contains p)
       J.roomFor ps → x.toNat < 16 → N.tile.acc ≠ 3 → G.gr * N.tile.rows = H.gr * M.tile.rows → J.outsideGang N.word = false →
       J.outsideGang M.word = false → y.toNat ≤ 1 →
       Completes (.tsmx t a b) s J { st := J.withTileOp t.toNat N.word ps (.smx x.toNat M.word J.warp.pos (y == 1)) }) ∧
     (Begins (.tdrain t a b) s J → ready →
       let dw := J.view.getPair a.toNat
       let d := Drain.of dw
       let f := Fmt.ofWord (J.ctx.entry d.fmt)
       let soff := 64 * ((J.view.getPair b.toNat).toNat % 2 ^ 17)
       dw.toNat / 2 ^ 48 = 0 → dw.toNat / 2 ^ 26 % 2 ^ 6 = 0 → d.rnd ≤ 5 → (J.view.getPair b.toNat).toNat < 2 ^ 17 →
       fmtLegal (J.ctx.entry d.fmt) = true → d.end_ N.tile f soff ≤ J.grid.kd.sp * 65536 → d.rows % 8 = 0 → d.row0 % 8 = 0 →
       d.row0 + d.rows ≤ N.tile.rows → (f.scaled = 0 ∨ (d.lines N.tile).2 % f.block = 0) →
       Completes (.tdrain t a b) s J { st := queued (.drain dw soff (J.ctx.entry d.fmt) J.ctx.srseed []) })) ∧
  (∀ (s : State) (J : Issue) (t : BitVec 4) (a b : BitVec 6) (N : Named), J.tileNamed t.toNat = some N →
     let G := J.gangOf N.word
     let inside := J.outsideGang N.word = false
     let y := J.view.getS b.toNat
     let sel := J.view.getS (b.toNat + 1)
     let side := J.group.sideRow N.tile G y.toNat
     let w := (J.view.getS a.toNat).toNat
     (Begins (.twait t) s J → inside → J.st.tileBusy J.warp t.toNat true true J.st.fresh = false →
       Completes (.twait t) s J { st := J.st }) ∧
     (Begins (.twait t) s J → inside → J.frag.granted = false → J.st.tileBusy J.warp t.toNat true true J.st.fresh = true →
       Waits (.twait t) s J J.st (.tile t.toNat true true J.st.fresh)) ∧
     (Begins (.tsider t a b) s J → inside → y.toNat < G.gr * N.tile.rows → J.st.tileBusy J.warp t.toNat false true J.st.fresh = false →
       (sel = 0 → Completes (.tsider t a b) s J
         { st := J.put ((J.warp.setS a.toNat (BitVec.ofNat 32 side.1)).setS (a.toNat + 1) (BitVec.ofNat 32 side.2.1)) }) ∧
       (sel = 1 → Completes (.tsider t a b) s J
         { st := J.put ((J.warp.setS a.toNat (BitVec.ofNat 32 side.2.2)).setS (a.toNat + 1) 0) })) ∧
     (Begins (.tsider t a b) s J → inside → y.toNat < G.gr * N.tile.rows → sel.toNat ≤ 1 → J.frag.granted = false →
       J.st.tileBusy J.warp t.toNat false true J.st.fresh = true →
       Waits (.tsider t a b) s J J.st (.tile t.toNat false true J.st.fresh)) ∧
     (Begins (.tamaxr t a) s J → inside → J.frag.granted = false → J.st.tileBusy J.warp t.toNat false false J.st.fresh = true →
       Waits (.tamaxr t a) s J J.st (.tile t.toNat false false J.st.fresh)) ∧
     (Begins (.tamaxr t a) s J → inside → (∀ o ∈ J.st.engines, o.names t.toNat = false) →
       Completes (.tamaxr t a) s J
         { st := J.put (J.warp.setPair a.toNat (BitVec.ofNat 64
             ((G.parts.map (fun p => N.tile.amax (J.group.tilesAt p))).foldl max 0))) }) ∧
     (Begins (.tgang t a) s J → J.frag.granted = false → 64 ≤ w → w < 128 → N.word = 0 → J.st.feature 2 = true →
       let H := Gang.of w 0
       H.gr * H.gc ≤ J.group.span → H.gr * N.tile.rows ≤ 512 → H.gc * N.tile.cols ≤ 1024 → J.roomFor H.parts →
       Waits (.tgang t a) s J (J.withTileOp t.toNat 0 H.parts (.gang w))
         (.tile t.toNat true true (J.st.fresh + 1))) ∧
     (Begins (.tgang t a) s J → J.frag.granted = false → w = 0 → N.word ≠ 0 → J.roomFor (Gang.of N.word 0).parts →
       Waits (.tgang t a) s J (J.withTileOp t.toNat N.word (Gang.of N.word 0).parts (.gang 0))
         (.tile t.toNat true true (J.st.fresh + 1))) ∧
     (Begins (.tgang t a) s J → J.frag.granted = true → Completes (.tgang t a) s J { st := J.st }) ∧
     (Begins .tfence s J → Completes .tfence s J { st := J.st }) ∧
     (∀ u : BitVec 4, J.tileNamed u.toNat = none → Begins (.tzero u) s J →
       TakesException (.tzero u) s J { code := .bounds, detail := 4 })) ∧
  (∀ (s : State) (core : Nat),
     (∀ o, s.tileDue core = some o →
       ∃ u, exec (.tileOpComplete core) s = .next u ∧ u.engines = s.engines.filter (fun x => x.uid != o.uid) ∧
         ∀ g kd, s.group? o.group = some g → s.kdOf g = some kd → o.isDrain = false →
           u = ({ s with engines := s.engines.filter (fun x => x.uid != o.uid) }).setGroup (o.effect kd g)) ∧
     (s.tileDue core = none → exec (.tileOpComplete core) s = .next s) ∧
     (∀ o, s.tileDue core = some o → o ∈ s.engines ∧ o.members.any (fun m => m.1 == core) = true ∧
       ∀ m ∈ o.members, ∃ x, (s.engineOps m.1).head? = some x ∧ x.uid = o.uid))

/-- R284, R289, R291, R293: what an operation leaves in the tile of one span position that is in no gang: each element is zero, the fill
value, the old element times the factor, or the old element plus or minus the products; a binding writes the gang word. Nothing else
of the group changes but the images at that position, and no scratchpad.
The model's own choices that it rests on: log entry 24. -/
def Obligations.TileEffects : Prop :=
  ∀ (o : TileOp) (kd : KernelDesc) (g : Group) (T : Tile) (c pos i j : Nat), kd.tile? o.t = some T → o.gang = 0 →
    o.members = [(c, pos)] → pos < g.places.length → i < T.rows → j < T.cols →
    let h := o.effect kd g
    let old := T.elem (g.tilesAt pos) i j
    let new := T.elem (h.tilesAt pos) i j
    let wrap := 2 ^ (8 * T.width)
    (o.kind = .zero → new = 0) ∧ (∀ v, o.kind = .fill v → new = v.toNat % wrap) ∧
    (∀ v at_ p, o.kind = .scale v 0 at_ p → new = T.scaled old v.toNat % wrap) ∧
    (∀ da db fa fb mode, o.kind = .mma da db fa fb mode false (some pos) (some pos) →
      new = ({ a := Operand.of da, b := Operand.of db, fa := Fmt.ofWord fa, fb := Fmt.ofWord fb, ma := g.spadAt pos,
               mb := g.spadAt pos, m := (Operand.of da).ext, n := (Operand.of db).ext } : Multiply).elem T mode i j old % wrap) ∧
    (∀ w, o.kind = .gang w → T.gang (h.tilesAt pos) = w % 2 ^ 32) ∧
    (o.isDrain = false → (∀ p, p ≠ pos → h.tilesAt p = g.tilesAt p) ∧ (∀ p, h.spadAt p = g.spadAt p) ∧ h.uid = g.uid ∧
      h.state = g.state ∧ h.roles = g.roles)

/-! ### Class 0x9: copies (R304 to R326) -/

namespace Sys2Proof.Machine

/-- The copy instructions that name a barrier, by kind (R304). -/
def copyTable : List (CopyKind × (BitVec 4 → BitVec 6 → BitVec 6 → BitVec 4 → BitVec 2 → Instr)) :=
  [(.cpy, .cpy), (.cpys, .cpys), (.cpyt, .cpyt), (.cpym, .cpym), (.cpyr, .cpyr), (.cpyg, .cpyg)]

end Sys2Proof.Machine

/-- R305, R316 to R318, R323: a copy whose unit has room, whose checks pass and whose elements all translate is accepted: it joins its
unit and the instruction completes, once the reads of its walks have crossed. A full unit makes it wait before it issues, an undeclared
barrier, a failed check and a refused element fault, and elements of absent pages make it wait for the pager.

R324, R325: `CPYW` completes once no copy of its warp but a prefetch is left, and waits otherwise; `CPYX` cancels the warp's copies
that do not run, credits their barriers and counts them and their bytes.
The model's own choices that it rests on: log entries 33, 64 and 84 (the reads of walks that cross link 0). -/
def Obligations.CopyInstructions : Prop :=
  (∀ (s : State) (J : Issue) (n b : BitVec 4) (c ss : BitVec 6) (m : BitVec 2),
     let room := J.latched = true ∨ (J.st.copies.filter (fun x => x.core == J.warp.core)).length < 32
     let accept := fun (a : CopyAsk) (bar : Nat) (u : State) =>
       ({ st := { u with copies := u.copies ++ [J.newCopy a bar u.fresh], fresh := u.fresh + 1 } } : Done)
     (∀ r ∈ copyTable, Begins (r.2 n c ss b m) s J → room → J.grid.kd.barrierCfg b.toNat ≠ 0 →
       let a := J.copyAsk r.1 n c ss
       let xs := J.copyXlats a
       let js := copyWaits a.load J.warp.core xs
       let walks := J.st.sendWalks J.copyAgent a.access (xs.map (fun x => x.2.1))
       let kept := fun (u : State) => u.forget J.copyAgent.master (copyStale a.load xs)
       (∀ e, J.copyCheck a n.toNat = some e →
         ∃ t, e = .trap t ∧ TakesException (r.2 n c ss b m) s J t) ∧
       (∀ u, J.copyCheck a n.toNat = none → (∀ x ∈ xs, ∃ key, x.2.2 = .ok key) → walks = .ok u →
         Completes (r.2 n c ss b m) s J (accept a b.toNat (kept u))) ∧
       (J.copyCheck a n.toNat = none → (∀ x ∈ xs, x.2.2 ≠ .nowhere) →
         (∀ e, copyRefusal a.load xs = some e →
           ∃ t, e = .trap t ∧ TakesException (r.2 n c ss b m) s J t) ∧
         (∀ u, copyRefusal a.load xs = none → (∀ x ∈ xs, ∀ key, x.2.2 ≠ .stalled key) → js ≠ [] → walks = .ok u →
           let w := (kept u).waitOnPages J.group.part J.group.ctx js
           Waits (r.2 n c ss b m) s J w.1 w.2))) ∧
     (∀ r ∈ copyTable, Begins (r.2 n c ss b m) s J → ¬ room → Waits (r.2 n c ss b m) s J J.st .copyUnit) ∧
     (∀ r ∈ copyTable, Begins (r.2 n c ss b m) s J → room → J.grid.kd.barrierCfg b.toNat = 0 →
       TakesException (r.2 n c ss b m) s J { code := .barrier, detail := 1, aux := BitVec.ofNat 32 b.toNat }) ∧
     (∀ a, a = J.copyAsk .cpyp n c ss → Begins (.cpyp n c ss m) s J → room → J.copyCheck a n.toNat = none →
       Completes (.cpyp n c ss m) s J
         (accept a 16 ((J.st.sendWalks J.copyAgent .read ((J.copyXlats a).map (fun x => x.2.1))).toOption.getD J.st)))) ∧
  (∀ (s : State) (J : Issue) (d : BitVec 6),
     let mine := fun (c : Copy) => c.warp == J.ref.warp
     let gone := J.st.copies.filter (fun c => mine c && !c.running)
     let bytes := ((gone.filter (fun c => c.kind != .cpyp)).map Copy.credit).sum
     (Begins .cpyw s J → (∀ c ∈ J.st.copies, c.warp = J.ref.warp → c.kind = .cpyp) → Completes .cpyw s J { st := J.st }) ∧
     (Begins .cpyw s J → (∃ c ∈ J.st.copies, c.warp = J.ref.warp ∧ c.kind ≠ .cpyp) →
       Waits .cpyw s J J.st .copies) ∧
     (Begins (.cpyx d) s J →
       Completes (.cpyx d) s J
         { st := gone.foldl (fun s c => if c.kind = .cpyp then s else s.creditBarrier c.group c.barrier c.credit)
             { J.st.setWarp ((J.warp.setS d.toNat (BitVec.ofNat 32 gone.length)).setS (d.toNat + 1) (BitVec.ofNat 32 bytes)) with
               copies := J.st.copies.filter (fun c => !(mine c && !c.running)) } }))

/-- R305, R319 to R322: the events of the copy unit. The home slice of a line grants it to the copy whose request reached it first, while
no copy owns it; a start lets the oldest copy that does not run, and owns its lines, run. A completion moves the data once the older
stores of the core to its lines have performed, and ends the copy once nothing of it is outstanding: at core scope it leaves its unit and
credits its barrier at once, and otherwise once the accesses before it have performed.

R310, R322, R444: what moves. A row that a copy reads holds the bytes of its elements in their order, with zeros for an element out of
bound and for one that a peer refused; a copy to scratchpads leaves in each of them the rows that it read, and a copy to its own die's
memory leaves in each element, when no two overlap, the bytes of its row.
The model's own choices that it rests on: log entry 26. -/
def Obligations.CopyEvents : Prop :=
  (∀ (s : State) (n : Nat),
    (∀ c, s.grantee n = some c →
      exec (.copyOwnershipGrant n) s = .next (s.setCopy { c with owned := c.owned + 1, asked := none }) ∧
      s.copyOwns n = false ∧ c ∈ s.copies ∧ c.lines[c.owned]? = some n ∧
      ∃ k, c.asked = some k ∧ ∀ d ∈ s.copies, d.lines[d.owned]? = some n → ∀ m, d.asked = some m → k ≤ m) ∧
    (s.grantee n = none → exec (.copyOwnershipGrant n) s = .next s) ∧
    (∀ c, s.startable n = some c → exec (.copyStart n) s = .next ((s.setCopy { c with running := true }).askReads c)) ∧
    (s.startable n = none → exec (.copyStart n) s = .next s) ∧
    (∀ c, s.copy? n = some c →
      let u := s.performWhere (fun e => e.core == c.core && decide (e.seq < c.after) && c.writtenLines.contains (lineOf e.key))
      let held := u.olderThanCopy c || u.copyHeld c
      let ends := fun (s : State) (c : Copy) =>
        if s.copyOutstanding n then exec (.copyComplete c.core n) s = .next s else exec (.copyComplete c.core n) s = .next (s.closeCopy c)
      (c.running = false → exec (.copyComplete c.core n) s = .next s) ∧
      (c.running = true → c.sent = false → held = true → exec (.copyComplete c.core n) s = .next u) ∧
      (∀ d, c.running = true → c.sent = false → held = false → (u.moveCopy c).copy? n = some d →
        exec (.copyComplete c.core n) s =
          .next (if (u.moveCopy c).copyOutstanding n then u.moveCopy c else (u.moveCopy c).closeCopy d)) ∧
      (c.running = true → c.sent = true → ends s c)) ∧
    (∀ c, c.kind ≠ .cpyp → c.refusedVa = none → ((s.group? c.group).map Group.scope).getD 0 = 0 →
      s.closeCopy c = ({ s with copies := s.copies.filter (fun x => x.uid != c.uid) }).creditBarrier c.group c.barrier c.credit)) ∧
  (∀ (s : State) (c : Copy) (x : CopySide) (r j : Nat) (e : Option (Nat × Nat)),
    c.load = true → c.sides.head? = some x → (x.rows.getD r [])[j]? = some e →
    ((s.copyRow c r).drop (x.elem * j)).take x.elem =
      (match e with
        | none => List.replicate x.elem 0
        | some cell => if c.refuses cell.2 then List.replicate x.elem 0 else s.readGlobal c.core cell.2 x.elem)) ∧
  (∀ (s : State) (c : Copy) (g : Group), c.load = true → c.kind ≠ .cpyp → s.group? c.group = some g → c.swz < 4 →
    c.rowBytes % 16 = 0 → c.rowBytes % swizzleSpan c.swz = 0 → (∀ r < c.rows, (s.copyRow c r).length = c.rowBytes) →
    (∀ p ∈ c.targets, p < g.span ∧ ∀ q < 16, ∀ b, (s.moveCopy c).queueLine c.group p q b = [] ∧ s.queueLine c.group p q b = []) →
    ∀ p ∈ c.targets, ∀ r < c.rows,
      spadRow ((s.moveCopy c).spadOf c.group p) c.soff c.rowBytes c.swz r = s.copyRow c r) ∧
  (∀ (s : State) (c : Copy) (x : CopySide), c.load = false → c.kind ≠ .cpyp → c.kind ≠ .cpyr → c.sides = [x] →
    let cell := fun (r j : Nat) => ((x.rows.getD r [])[j]?).bind id
    (∀ r j y, cell r j = some y → away (dieOf c.core) y.2 = false) →
    (∀ r j y q k z, r < c.rows → q < c.rows → cell r j = some y → cell q k = some z → (r, j) ≠ (q, k) →
      rangesMeet y.2 x.elem z.2 x.elem = false) →
    ∀ r < c.rows, ∀ j y, cell r j = some y → x.elem * (j + 1) ≤ c.rowBytes → (s.copyRow c r).length = c.rowBytes →
      memReads (s.moveCopy c).mem y.2 x.elem = ((s.copyRow c r).drop (j * x.elem)).take x.elem)

/-- R308: rows of a copy in a scratchpad, in 16-byte chunks that a swizzle permutes within each row. A row read back after it is
written holds its bytes, another row of the same shape keeps its own, and bytes outside the row's stretch stay. -/
def Obligations.SwizzledRows : Prop :=
  ∀ (m : List Host.Cell) (soff row swz r q k : Nat) (bs : List Byte), swz < 4 → row % swizzleSpan swz = 0 → row % 16 = 0 →
    bs.length = row →
    let m' := putSpadRow m soff row swz r bs
    spadRow m' soff row swz r = bs ∧ (q ≠ r → spadRow m' soff row swz q = spadRow m soff row swz q) ∧
    (k < soff + r * roundUp row 64 ∨ soff + r * roundUp row 64 + row ≤ k → memRead m' k = memRead m k) ∧
    (Memory.wf m = true → Memory.wf m' = true)

/-! ### Class 0xE: hints (R47 to R60) -/

namespace Sys2Proof.Machine

/-- The kind of a hint word (R47), by its code. -/
def hintKind : Instr → Option Nat
  | .hsch .. => some 0
  | .himm .. => some 1
  | .himmx .. => some 2
  | .hmod .. => some 3
  | .hpred .. => some 4
  | .hperm .. => some 5
  | _ => none

/-- R60: the source lane of lane `L` under a pattern and amount; pattern 5 takes it from a scalar. -/
def routeTable (n : Nat) (x : Word) (L : Nat) : List (Nat × Nat) :=
  [(0, L), (1, (L + n) % 32), (2, n), (3, L ^^^ n), (4, L ^^^ (2 ^ n - 1)), (5, x.toNat % 32)]

end Sys2Proof.Machine

/-- R47, R49: a hint word joins the chain of its fragment, which goes on to the next word with nothing else changed; a fifth word of a
chain raises `UD`. Two words of one kind in a chain, wherever they stand, break it.

R47, R51, R55, R57, R59, R60: what a chain gives its instruction. The immediate is HIMM's, sign-extended, or with HIMMX directly
before it the 32 bits of both. HSCH gives the next three instructions their stalls, marks and yield, from the bits of its word, one share
used up by each; HMOD its fields, from the bits of its word; HPRED the governing mask; and HPERM the lane that each lane reads of
operands a and b.
The model's own choices that it rests on: log entry 12. -/
def Obligations.HintWords : Prop :=
  (∀ (s : State) (I : Issue) (a d g : BitVec 4) (b c e f h j y : BitVec 1) (i : BitVec 22) (x : BitVec 10) (sc rn sa sb : BitVec 3)
     (o wd : BitVec 2) (k p q : BitVec 3) (na nb : BitVec 5) (sp : BitVec 6),
     s.issuer = some I →
     ∀ w ∈ [Instr.hsch a b c d e f g h j y, .himm i, .himmx x, .hmod sc o rn b wd sa sb c e f h j, .hpred k b, .hperm p na q nb sp],
       (I.frag.chain.length < 4 →
         exec w s = .next (I.put (I.warp.setFrag { I.frag with chain := I.frag.chain ++ [w], pc := I.frag.pc + 4 }))) ∧
       (I.frag.chain.length = 4 → TakesException w s I { code := .ud, detail := hintWord w })) ∧
  (∀ (l m n : List Instr) (u v : Instr), hintKind u ≠ none → hintKind u = hintKind v →
     ∃ w, chainHints Hints.none (l ++ u :: m ++ v :: n) = .error w) ∧
  (∀ (i : BitVec 22) (x : BitVec 10) (k : BitVec 3) (v : BitVec 1) (hs : Hints),
     (chainHints Hints.none [.himm i] = .ok hs → hs.imm = some (i.signExtend 32)) ∧
     (chainHints Hints.none [.himmx x, .himm i] = .ok hs → hs.imm = some (x ++ i)) ∧
     (∃ w, chainHints Hints.none [.himmx x, .hpred k v, .himm i] = .error w) ∧ (∃ w, chainHints Hints.none [.himmx x] = .error w) ∧
     (∃ r, chainHints Hints.none [.hpred k v, .himm i] = .ok r ∧ r.pred = some (k.toNat, v == 1#1) ∧ r.imm = some (i.signExtend 32)) ∧
     (∃ r, chainHints Hints.none [.himm i, .hpred k v] = .ok r ∧ r.pred = some (k.toNat, v == 1#1) ∧ r.imm = some (i.signExtend 32)) ∧
     (∀ J : Issue, J.h.pred = some (k.toNat, false) → J.mask = J.frag.lanes &&& J.view.getK k.toNat) ∧
     (∀ J : Issue, J.h.pred = some (k.toNat, true) → J.mask = J.frag.lanes &&& ~~~(J.view.getK k.toNat)) ∧
     (∀ J : Issue, J.h.pred = none → J.mask = J.frag.lanes)) ∧
  (∀ (i : Instr) (w : Word), Sys2Proof.encode i = some w →
     let bits := fun (lo n : Nat) => w.toNat / 2 ^ lo % 2 ^ n
     (hintKind i = some 0 → ∃ x y z, hschCover i = some [x, y, z] ∧
       (x.stall = bits 18 4 ∧ x.lastA = w.getLsbD 17 ∧ x.lastB = w.getLsbD 16 ∧ x.yield = false) ∧
       (y.stall = bits 12 4 ∧ y.lastA = w.getLsbD 11 ∧ y.lastB = w.getLsbD 10 ∧ y.yield = false) ∧
       (z.stall = bits 6 4 ∧ z.lastA = w.getLsbD 5 ∧ z.lastB = w.getLsbD 4 ∧ z.yield = w.getLsbD 3) ∧
       ∀ f : Frag, f.chain = [i] → f.covering = [x, y, z] ∧ f.complete.cover = [y, z]) ∧
     (hintKind i = some 3 → ∃ r, chainHints Hints.none [i] = .ok r ∧ r.mod = some {
       scope := bits 19 3, ord := bits 17 2, rnd := bits 14 3, sat := w.getLsbD 13, wid := bits 11 2, sela := bits 8 3, selb := bits 5 3,
       nega := w.getLsbD 4, negb := w.getLsbD 3, absa := w.getLsbD 2, absb := w.getLsbD 1, sgn := w.getLsbD 0 }) ∧
     (hintKind i = some 5 → ∃ r, chainHints Hints.none [i] = .ok r ∧ r.perm = some {
       pa := bits 19 3, na := bits 14 5, pb := bits 11 3, nb := bits 6 5, s := bits 0 6 })) ∧
  (∀ (f : Frag), f.chain = [] → f.complete.cover = f.cover.tail) ∧
  (∀ (J : Issue) (p : Perm) (n : BitVec 7) (L : Nat), J.h.perm = some p → L < 32 →
     (∀ r ∈ routeTable p.na (J.view.getS p.s) L, p.pa = r.1 → lane (J.va n) L = lane (J.view.getV n.toNat) r.2) ∧
     (∀ r ∈ routeTable p.nb (J.view.getS p.s) L, p.pb = r.1 → lane (J.vb n 0#1) L = lane (J.view.getV n.toNat) r.2)) ∧
  (∀ (J : Issue) (n : BitVec 7), J.h.perm = none → J.va n = J.view.getV n.toNat ∧ J.vb n 0#1 = J.view.getV n.toNat)

/-! ### Checks and exceptions (R39, R45, R106, R167, R395, R398 to R403, R411, R491) -/

namespace Sys2Proof.Machine

/-- The opcode map's legal roles (R45), by class and function code; none where every role is legal. -/
def roleOfCode (cls code : Nat) : Option Role :=
  match cls with
  | 0x2 => if code = 2 ∨ code = 3 ∨ code = 8 ∨ code = 9 then some .epilogue else none
  | 0x3 | 0x4 | 0x5 | 0x6 | 0x7 | 0xB => some .epilogue
  | 0x8 => some .maths
  | 0x9 => some .copy
  | 0xC => if 3 ≤ code then some .epilogue else none
  | _ => none

/-- The registers of R395 that a warp may read, and write: every warp, or a handler warp only. -/
def mayReadCsr (handler : Bool) (r : Nat) : Bool :=
  [0x00, 0x01, 0x02, 0x03, 0x04, 0x13, 0x1B].contains r ||
    (handler && [0x05, 0x06, 0x07, 0x10, 0x11, 0x12, 0x14, 0x15, 0x16, 0x18, 0x19, 0x1A, 0x1C].contains r)
def mayWriteCsr (handler : Bool) (r : Nat) : Bool :=
  handler && [0x02, 0x03, 0x04, 0x05, 0x06, 0x07, 0x10, 0x11, 0x12, 0x14, 0x15, 0x16, 0x17, 0x18, 0x19, 0x1A, 0x1C, 0x1D].contains r

end Sys2Proof.Machine

/-- R39: a chain that breaks a rule, or a hint that the instruction does not accept, is `UD`; then a role that R45 does not give is
`ROLE`, with class, code and role in the detail; then an access that R395 does not give is `PRIV`. Nothing but the exception happens.
(Which word the detail of `UD` holds is log entry 22.)

R51, R52, R109: with no hint, no result in flight and no instruction of the warp under way, a form of format S or SI begins as soon as
its fragment issues, and reads the registers of its own warp.
The model's own choices that it rests on: log entry 22. -/
def Obligations.ChecksComeInOrder : Prop :=
  (∀ (s : State) (I : Issue) (i : Instr) (w : Word), s.issuer = some I → Sys2Proof.encode i = some w → w.toNat / 2 ^ 28 ≠ 14 →
     let code := w.toNat / 2 ^ 22 % 64
     (∀ x, chainHints Hints.none I.frag.chain = .error x → TakesException i s (I.over i) { code := .ud, detail := x }) ∧
     (∀ h, chainHints Hints.none I.frag.chain = .ok h →
       (∀ x, acceptance i I.frag h = some x → TakesException i s (I.over i) { code := .ud, detail := x }) ∧
       (acceptance i I.frag h = none →
         (∀ r, roleOfCode (w.toNat / 2 ^ 28) code = some r → I.warp.role ≠ r →
           TakesException i s (I.over i)
             { code := .role, detail := BitVec.ofNat 32 (w.toNat / 2 ^ 28 + code * 16 + roleNat I.warp.role * 1024) }) ∧
         (∀ d r, i = .csrd d r → mayReadCsr I.grid.handler r.toNat = false → r.toNat < 0x1E → r.toNat ∉ [0x0D, 0x0E, 0x0F] →
           TakesException i s (I.over i) { code := .priv, detail := BitVec.ofNat 32 r.toNat }) ∧
         (∀ a r, i = .cswr a r → mayWriteCsr I.grid.handler r.toNat = false → r.toNat < 0x1E → r.toNat ∉ [0x0D, 0x0E, 0x0F] →
           TakesException i s (I.over i) { code := .priv, detail := BitVec.ofNat 32 (256 + r.toNat) })))) ∧
  (∀ (s : State) (I : Issue), s.issuer = some I → I.frag.chain = [] → I.warp.inflight = [] → I.frag.latch = none → I.outstanding = [] →
     ∀ (d a b : BitVec 6) (n : BitVec 16),
       (∀ r ∈ scalarTable, ∃ J, Begins (r.1 d a b 0#1) s J ∧ J.view = I.warp ∧ J.warp = I.warp ∧ J.st = s) ∧
       (∃ J, Begins (.smovi d n) s J ∧ J.view = I.warp ∧ J.warp = I.warp ∧ J.st = s))

/-- R49, R167, R398, R401, R492: an exception of an instruction as a whole parks the fragment at its chain head, with both of its stacks,
numbered from the context's series, and makes its record. The record waits while the queue has no room, and until the stores of the core
before it have performed and are acknowledged; else it is written at entry FQHEAD of the queue, FQHEAD advances and the MSI-X message is
sent, or waits for link 13. No register, mask or flag changes.

R167: when only some active lanes of an epilogue fragment fault and a record is free, those lanes park alone at the chain head in the
lowest free record, with copies of both stacks, and the fragment keeps the others.

R398, R399: the 64 bytes of a record, and the fault codes in order.
The model's own choices that it rests on: log entries 16, 100 (the record is held until every earlier store of the fragment's core has
performed and is acknowledged, and later records stay behind it) and 108 (the MSI-X message waits for link 13). -/
def Obligations.ExceptionEntry : Prop :=
  (∀ (s : State) (I : Issue) (t : Trap) (c₀ : Ctx), s.issuer = some I → t.lanes = none → t.stale = [] →
     s.ctx? I.group.part I.group.ctx = some c₀ →
     let s' := s.raise I.ref t
     let parked : Frag :=
       { I.frag with pc := I.frag.head, chain := [], cover := [], wait := .parked c₀.seq, readyFor := 0, promoted := none,
                     stallTill := 0, restTill := 0, yielded := false, latch := none, bytes := [] }
     let drained := (s.setWarp (I.warp.setFrag parked)).drainCore I.warp.core
     let sib := (((I.warp.setFrag parked).frags.filter (fun x => x.id != I.frag.id)).filterMap Frag.record).map (2 ^ ·)
     let own := I.frag.record.getD 15
     let epi := decide (I.warp.role = .epilogue)
     let upto := s.storeNumber I.warp.core
     let acked := drained.unacknowledged I.warp.core upto = false ∧ drained.unperformed I.warp.core upto = false
     let r : Record :=
       { pc := I.frag.head, lanes := if epi then I.frag.lanes else 1
         code := BitVec.ofNat 32 (t.code.num + t.rpl.elim 0 (fun x => 2 ^ 31 + x * 2 ^ 16))
         frag := if epi then BitVec.ofNat 32 (sib.sum * 2 ^ 16 + own * 2 ^ 8 + own) else 0xF0F
         seq := c₀.seq, detail := t.detail, aux := t.aux, addr := t.addr
         who := BitVec.ofNat 32 (I.warp.index * 2 ^ 24 + roleNat I.warp.role * 2 ^ 22 + I.warp.core * 2 ^ 16 + I.warp.slot)
         kid := BitVec.ofNat 32 I.grid.kid, gx := I.group.gx, gy := I.group.gy, gz := I.group.gz, gridn := I.grid.gridn
         behind := some (I.warp.core, upto), own := false }
     let c : Ctx :=
       { c₀ with
         seq := c₀.seq + 1
         live := c₀.live ++ [{ seq := c₀.seq, code := t.code.num, group := I.group.uid, role := I.warp.role,
                               index := I.warp.index, frag := some { warp := I.warp.uid, frag := I.frag.id },
                               lanes := I.frag.lanes, skip := I.frag.skip }] }
     let full := c₀.fqsize = 0 ∨ c₀.fqhead - c₀.fqtail = c₀.fqsize
     let posted := drained.setCtx { c with heldFaults := [r] }
     s'.warps = drained.warps ∧
     (full ∨ (c₀.heldFaults = [] ∧ ¬ acked) → s'.mem = drained.mem ∧
       ∃ k, s'.ctx? I.group.part I.group.ctx =
         some { c with heldFaults := (c₀.heldFaults ++ [r]).map drained.behindOver, countedFaults := k }) ∧
     (∀ key, ¬ full → acked → c₀.heldFaults = [] → c₀.fqsig = 0 →
       posted.headboxKey { c with heldFaults := [{ r with behind := none }] } .write
         (c₀.fqbase.toNat + 64 * (c₀.fqhead.toNat % c₀.fqsize.toNat)) = some key →
       s'.mem = memWrites drained.mem key (Record.bytes r) ∧
         (∃ k, s'.ctx? I.group.part I.group.ctx = some { c with fqhead := c₀.fqhead + 1, heldFaults := [], countedFaults := k }) ∧
         s'.msix = (if c₀.cfg.getLsbD 2 && drained.linkUp 13 then (c₀.part, c₀.slot) :: drained.msix else drained.msix) ∧
         s'.irqs = if c₀.cfg.getLsbD 2 && !drained.linkUp 13 then drained.irqs ++ [(c₀.part, c₀.slot)] else drained.irqs)) ∧
  (∀ (s : State) (I : Issue) (t : Trap) (m : Word) (r : Nat), s.issuer = some I → t.lanes = some m → I.warp.role = .epilogue →
     I.frag.lanes &&& m ≠ I.frag.lanes → I.warp.freeRecord = some r →
     (∀ f ∈ I.warp.frags, f.id ≠ I.warp.nextFrag) →
     ∃ w f p, (s.raise I.ref t).warp? I.ref.warp = some w ∧
       w.frag? I.ref.frag = some f ∧ f = { I.frag with lanes := I.frag.lanes &&& ~~~m } ∧
       w.frag? I.warp.nextFrag = some p ∧ p.lanes = I.frag.lanes &&& m ∧ p.record = some r ∧ p.pc = I.frag.head ∧ p.chain = [] ∧
       p.ret = I.frag.ret ∧ p.conv = I.frag.conv ∧ p.wait = .parked I.ctx.seq ∧
       (∀ q ∈ List.range r, q ∈ I.warp.frags.filterMap Frag.record) ∧ r ∉ I.warp.frags.filterMap Frag.record ∧
       w.s = I.warp.s ∧ w.k = I.warp.k ∧ w.c = I.warp.c ∧ w.d = I.warp.d ∧ w.v = I.warp.v) ∧
  ((∀ r : Record, r.bytes.length = 64 ∧
     natLE r.bytes = r.pc.toNat + 2 ^ 64 * (r.lanes.toNat + 2 ^ 32 * (r.code.toNat + 2 ^ 32 * (r.frag.toNat + 2 ^ 32 * (r.seq.toNat +
       2 ^ 32 * (r.detail.toNat + 2 ^ 32 * (r.aux.toNat + 2 ^ 32 * (r.addr.toNat + 2 ^ 64 * (r.who.toNat + 2 ^ 32 * (r.kid.toNat +
       2 ^ 32 * (r.gx.toNat + 2 ^ 32 * (r.gy.toNat + 2 ^ 32 * (r.gz.toNat + 2 ^ 32 * r.gridn.toNat))))))))))))) ∧
   [FaultCode.ud, .role, .priv, .bounds, .prot, .align, .illfmt, .rcpill, .stallshort, .budgetdl, .queue, .barrier, .lostpermit, .mchk,
     .trap, .assert, .bkpt].map FaultCode.num = (List.range 17).map (· + 1))

/-- R402, R403, R460: the answers. A live record is answered once: `RESUME` lets the fragment issue at its chain head, `SKIP` at the word
after the instruction, `KILL` ends its lanes, and its warp with the last of them. The answer to a record that is not live, or one of a machine check other than `KILL`, is
discarded and counted. A record of an evicted group keeps its answer.

R224, R245: the pager's answer to a live future. The future ends. A fragment that waits for it alone re-executes its unit, and one that
waits for others as well goes on waiting for those; refused, the lanes of the page fault at once with `PROT` cause 5. So it is for every
fragment of the context, and the future is gone. An answer to a number that is no live future is discarded and counted.
(No fragment that waits for a free future is in the states of that clause: such a one may take the number anew, R244.) -/
def Obligations.FaultAndPagerAnswers : Prop :=
  (∀ (s : State) (part slot : Nat) (q : BitVec 24) (c : Ctx), s.ctx? part slot = some c →
     let counted := Host.Outcome.next { s with counters := { s.counters with answers := satInc s.counters.answers } }
     let resume := Instr.faultAnswerResume part slot q
     let skip := Instr.faultAnswerSkip part slot q
     let kill := Instr.faultAnswerKill part slot q
     let answers := [(resume, Answer.resume), (skip, .skip), (kill, .kill)]
     (∀ p ∈ answers, (∀ l ∈ c.live, l.seq ≠ q) ∨ (∃ a, (q, a) ∈ c.answers) ∨ (∃ r ∈ c.heldFaults, r.seq = q) → exec p.1 s = counted) ∧
     (∀ l, c.live.find? (fun l => l.seq == q) = some l → (∀ a, (q, a) ∉ c.answers) → (∀ r ∈ c.heldFaults, r.seq ≠ q) →
       c.state ≠ .faulted →
       (l.code = 14 → exec resume s = counted ∧ exec skip s = counted) ∧
       (∀ g, l.frag.isSome → s.group? l.group = some g → g.state = .evicting ∨ g.state = .evicted ∨ g.state = .resumed →
         ∀ p ∈ answers, l.code ≠ 14 →
         exec p.1 s = .next ((s.setCtx { c with answers := c.answers ++ [(q, p.2)] }).makeResumable l.group)) ∧
       (∀ r g w f, l.frag = some r → s.group? l.group = some g → g.state = .running ∨ g.state = .waiting → l.code ≠ 14 →
         s.warp? r.warp = some w → w.frag? r.frag = some f → f.wait = .parked q →
         let s' := s.setCtx { c with live := c.live.filter (fun l => l.seq != q) }
         let go := fun (pc head : Dword) (arrived : Option (BitVec 16)) =>
           Host.Outcome.next (s'.setWarp (w.setFrag { f with pc := pc, head := head, wait := .none, chain := [], cover := [],
                                                              granted := false, denied := 0, arrived := arrived, latch := none,
                                                              bytes := [] }).releaseBehind)
         exec resume s = go f.head f.head f.arrived ∧ exec skip s = go f.skip f.skip none ∧
           exec kill s = .next (s'.killLanes w.uid f.lanes)) ∧
       (∀ (s' : State) (w : Warp) (m : Word), s'.warp? w.uid = some w →
         (w.liveLanes &&& ~~~m ≠ 0 → s'.killLanes w.uid m = s'.endLanes w.uid m) ∧
         (w.liveLanes &&& ~~~m = 0 → s'.killLanes w.uid m = s'.kill w.group false [(w.role, w.index)])))) ∧
  (∀ (s : State) (part slot : Nat) (n : BitVec 10) (c : Ctx), s.ctx? part slot = some c →
     ((∀ f ∈ c.futures, f.n ≠ n.toNat) → ∀ i ∈ [Instr.pagerDoorbellRetry part slot n, .pagerDoorbellRefuse part slot n],
       exec i s = .next { s with counters := { s.counters with doorbells := satInc s.counters.doorbells } }) ∧
     (∀ f, c.futures.find? (fun f => f.n == n.toNat) = some f →
       exec (.pagerDoorbellRetry part slot n) s = .next (s.answerFuture c n.toNat false) ∧
       exec (.pagerDoorbellRefuse part slot n) s = .next (s.answerFuture c n.toNat true))) ∧
  (∀ (n : Nat) (f : Frag) (js : List Join), f.wait = .futures js →
     ((∀ j ∈ js, j.n ≠ some n) → Frag.afterRetry n f = f ∧ f.refusedJoin n = none) ∧
     (js ≠ [] → (∀ j ∈ js, j.n = some n) → f.latch = none →
       Frag.afterRetry n f = { f with pc := f.head, chain := [], readyFor := 0, promoted := none, wait := .none, bytes := [] }) ∧
     ((∃ j ∈ js, j.n = some n) → (∃ j ∈ js, j.n ≠ some n) →
       Frag.afterRetry n f = { f with wait := .futures (js.filter (fun j => decide (j.n ≠ some n))) }) ∧
     (∀ (s : State) (r : FragRef) (w : Warp) (j : Join), s.warp? r.warp = some w → w.frag? r.frag = some f →
       js.find? (fun j => j.n == some n) = some j →
       s.refuseFrag r n = (s.setWarp (w.setFrag f.retry)).raise r
         { code := .prot, aux := j.aux, addr := j.addr, rpl := j.rpl, lanes := j.lanes })) ∧
  (∀ (s : State) (part slot n : Nat) (c : Ctx), s.ctx? part slot = some c →
     (∀ w ∈ s.warps, ∀ f ∈ w.frags, ∀ js, f.wait = .futures js → ∀ j ∈ js, j.n.isSome = true) →
     let gone := fun (refuse : Bool) =>
       { c with futures := c.futures.filter (fun f => f.n != n), queues := c.queues.map (SubQueue.afterFuture n refuse) }
     let u := fun (refuse : Bool) => s.setCtx (gone refuse)
     let waiters := s.fragsOf c
     (∀ w f, w ∈ s.warps → f ∈ w.frags → ∀ g, s.group? w.group = some g → g.part = part → g.ctx = slot →
       ({ warp := w.uid, frag := f.id } : FragRef) ∈ waiters) ∧
     (s.answerFuture c n false).warps = s.warps.map (fun w =>
       if waiters.any (fun r => r.warp == w.uid) then { w with frags := w.frags.map (Frag.afterRetry n) } else w) ∧
     (s.answerFuture c n true).warps = (waiters.foldl (fun s r => s.refuseFrag r n) (u true)).warps ∧
     (∀ (s : State) (r : FragRef), (∀ w f, s.warp? r.warp = some w → w.frag? r.frag = some f → f.refusedJoin n = none) →
       s.refuseFrag r n = s) ∧
     (c.adds = [] → (s.answerFuture c n false).ctx? part slot = some (gone false)) ∧
     ∀ refuse, ∀ f ∈ (gone refuse).futures, f.n ≠ n) ∧
  (∀ (ls : List (Nat × Nat × Bool)) (core : Nat) (wr : Bool), ∀ j ∈ pageJoins ls core wr,
     j.aux = 5 ∧ j.n = none ∧ ∃ m, j.lanes = some m ∧
       ∀ L < 32, m.getLsbD L = ls.any (fun l => l.1 == L && l.2.1 / 4096 == j.page))

/-- R407, R410, R38: the system instructions that trap or sleep, and words that are no instruction.
The model's own choices that it rests on: log entry 49. -/
def Obligations.TrapsAndSleep : Prop :=
  ∀ (s : State) (J : Issue) (a : BitVec 6) (n : BitVec 8) (k : BitVec 16) (x : Word),
    let traps := fun i (t : Trap) => TakesException i s J t
    (Begins (.trap n) s J → traps (.trap n) { code := .trap, detail := n.setWidth 32 }) ∧
    (Begins (.assert a n) s J → J.sv a = 0 → traps (.assert a n) { code := .assert, detail := n.setWidth 32 }) ∧
    (Begins (.assert a n) s J → J.sv a ≠ 0 → Completes (.assert a n) s J { st := J.st }) ∧
    (Begins (.bkpt n) s J → J.ctx.cfg.getLsbD 1 = true → traps (.bkpt n) { code := .bkpt, detail := n.setWidth 32 }) ∧
    (Begins (.bkpt n) s J → J.ctx.cfg.getLsbD 1 = false → Completes (.bkpt n) s J { st := J.st }) ∧
    (Begins (.sleep k) s J → k = 0 → Completes (.sleep k) s J { st := J.st }) ∧
    (Begins (.sleep k) s J → k ≠ 0 → Waits (.sleep k) s J J.st (.sleep (J.now + k.toNat))) ∧
    (∀ warp frag w f till, s.warp? warp = some w → w.frag? frag = some f → f.wait = .sleep till →
      (till ≤ s.clock w.core → exec (.sleepExpire warp frag) s = .next (s.setWarp (w.finishing f id))) ∧
      (s.clock w.core < till → exec (.sleepExpire warp frag) s = .next s)) ∧
    (∀ I, s.issuer = some I → I.frag.chain = [] → x.toNat / 2 ^ 28 ≠ 14 ∨ 5 < x.toNat / 2 ^ 22 % 64 →
      TakesException (.unassignedEncoding x) s I { code := .ud, detail := x }) ∧
    (∀ I, s.issuer = some I →
      (∀ v, I.fetch = .ok v → exec .instructionFetch s = .next s) ∧
      (∀ t, I.fetch = .error (.trap t) → TakesException .instructionFetch s I t) ∧
      (∀ s' v, I.fetch = .error (.wait s' v) → Waits .instructionFetch s I s' v))

/-! ### Encoding, steps, reset -/

namespace Sys2Proof.Machine

/-- Words printed in the spec's listings (02_instruction_word, 03_formats, 04_warp, 06_control, 08_lane_crossing, 09_page, 10_consistency,
11_tile, 12_copy, 13_queue, 15_group, 16_context, 20_program_gemm, 21_program_radix), and the instructions printed beside them. -/
def wordTable : List (Word × Instr) :=
  [(0xE0045010, .hsch 1 0 0 5 0 0 0 0 1 0), (0x43020206, .vfma 0 4 2 3 0), (0x30038812, .vadd 7 8 9 0), (0x4203040A, .vfmul 0 6 4 5 0),
   (0xE0DA0000, .hmod 3 1 0 0 0 0 0 0 0 0 0 0), (0x100510A0, .sld 5 4 2 4), (0xE08FF000, .himmx 0x0FF), (0xE0780000, .himm 0x380000),
   (0x42410401, .vfmul 1 2 4 0 1), (0xE11C0000, .hpred 3 1), (0x02041460, .sdiv 4 5 6 0), (0x00441460, .saddc 4 5 6 0 0),
   (0x06090418, .scmp 1 2 2 3 0), (0x07C72008, .sbfe 7 8 0 1), (0x06C3FFFE, .smovi 3 0xFFFE), (0x208C0003, .brak 1 1 3),
   (0x2349FFFE, .loop 9 0xFFFE), (0x22C00000, .nop)] ++
  [(0x50028328, .vld 5 3 2 4 0), (0x5082021C, .vst 4 2 1 6 0), (0x50C20180, .vlds 4 1 4 0), (0x510402C0, .vsts 8 2 6 0),
   (0x61890831, .vatom 6 9 2 3 1), (0x64070841, .vred 7 2 4 1), (0x64503CE0, .vsatom 16 15 14 0), (0x7088051A, .vmatch 1 5 13),
   (0x70D00101, .vballot 2 0 1 0 1), (0x73440007, .kcnt 4 7), (0x74C48600, .vpack6 9 6 0), (0x75050900, .vunpk6 10 9 0),
   (0x11C800C0, .dmake 8 3), (0x80042105, .tmma 1 2 4 5), (0x8244A300, .tsidew 1 10 12), (0x8148E400, .tsmx 2 14 16),
   (0x90084184, .cpy 2 4 6 1 0), (0x91C00000, .cpyw), (0xA0448000, .qpop 1 8), (0xA1449000, .qrel 1 9), (0xA3886000, .bphase 2 6),
   (0xA3C40203, .ggrow 4 0 2 3), (0xA4460001, .ginfo 6 1), (0xB0020002, .rgclm 2 2), (0xB1C10000, .rgqry 1),
   (0xC0187000, .fmtset 6 7), (0xC0C30271, .vcvt 6 2 7 1), (0xC1430271, .vcvts 6 2 7 1), (0xD1460013, .csrd 6 0x13), (0xD1840017, .cswr 4 0x17)]

/-- Words that R38 and R41 to R46 call `UD`: a class and codes that nothing is assigned to, a field not shown that is not zero, an odd register
for a pair, and a special register outside R115. -/
def badWords : List Word := [0xF0000000, 0x09400000, 0x23800000, 0xE1800000, 0x02041461, 0x22C00001, 0x08410000, 0x110000FF, 0xD146000D]

end Sys2Proof.Machine

/-- R35 to R46: the word of a well-formed instruction decodes to that instruction, every operand at every value.

R3, R38: a word that decodes is the word of its instruction, and the instruction is well-formed: no bit is ignored. -/
def Obligations.EncodingRoundTrip : Prop :=
  (∀ (i : Instr) (w : Word), i.wf = true → Sys2Proof.encode i = some w → Sys2Proof.decode w = .ok i) ∧
  (∀ (w : Word) (i : Instr), Sys2Proof.decode w = .ok i → Sys2Proof.encode i = some w ∧ i.wf = true)

/-- Words of the spec's listings and encoding examples, with the instructions that they stand for; and words that are `UD`. -/
def Obligations.DecodeWords : Prop :=
  (∀ p ∈ wordTable, Sys2Proof.decode p.1 = .ok p.2) ∧ ∀ w ∈ badWords, ∃ e, Sys2Proof.decode w = .error e

/-- R35, R38, R49, R110: a step at which a port issues runs the decoded word at the chosen fragment's program counter, on the state in
which that fragment issues and its fetch has crossed to the word's home, and then ends the turn; a word that is no instruction runs as
such. The turn is the one asked for, or else
the first port with a ready fragment, when no instruction that waited can go on (log entry 1).

What follows every turn, and the other turns: an instruction that issued and whose wait is over goes on, an event runs with no fragment
issuing, and a clock advances time (log entry 1).
The model's own choices that it rests on: log entries 1 and 84 (the reads of the fetch that cross link 0). -/
def Obligations.StepRunsDecoded : Prop :=
  (∀ (s u t : State) (r : FragRef) (I : Issue) (va : Nat) (key : Nat),
     ((∃ core port ts, s.agenda = .issue core port :: ts ∧ u = { s with agenda := ts, draws := s.draws + 1 } ∧
         u.chosen core port = some r) ∨
       (s.agenda = [] ∧ u = { s with draws := s.draws + 1 } ∧ u.finishing = none ∧ u.firstIssue = some r)) →
     t = (u.passOver r).issuing r → t.issuer = some I → va = I.frag.pc.toNat % 2 ^ 57 →
     I.st.translate I.agent.master I.ctx .fetch va = .ok key → I.st.reaches (dieOf I.warp.core) 0 key = true →
     (I.fetchReads I.st va key).isSome = true →
     let w := bytesWord ((List.range 4).map (fun n => memRead t.mem (key + n)))
     (∀ i, Sys2Proof.decode w = .ok i → step s = closeTurn (exec i t.fetched)) ∧
     (∀ e, Sys2Proof.decode w = .error e → step s = closeTurn (exec (.unassignedEncoding w) t.fetched))) ∧
  (∀ t : State, t.fetched.mem = t.mem ∧ t.fetched.warps = t.warps ∧ t.fetched.groups = t.groups ∧ t.fetched.grids = t.grids ∧
     t.fetched.ctxs = t.ctxs ∧ t.fetched.cur = t.cur) ∧
  (∀ (s : State) (ts : List Turn),
     let u : State := { s with agenda := ts, draws := s.draws + 1 }
     (∀ t, closeTurn (.next t) = .next { t.settled with cur := none }) ∧
     (∀ i, s.agenda = .event i :: ts → i.isEvent = true → step s = closeTurn (exec i { u with cur := none })) ∧
     (∀ r i, (s.agenda = .finish r.warp r.frag :: ts ∨ (s.agenda = [] ∧ ts = [] ∧ u.finishing = some r)) → u.goesOn r = some i →
       step s = closeTurn (exec i { u with cur := some r })) ∧
     (s.agenda = .clock :: ts → step s = closeTurn (.next u.passClock)) ∧
     (u.passClock.ticks = s.ticks + 1 ∧ u.passClock.mem = s.mem ∧
       ∀ q, q < 6 → u.passClock.quireClk.getD q 0 = s.quireClk.getD q 0 + s.clkStep.getD q 16) ∧
     (∀ core port, s.agenda = .issue core port :: ts → u.chosen core port = none → step s = closeTurn (.next u)) ∧
     (s.agenda = [] → ts = [] → u.finishing = none → u.firstIssue = none → u.internal = none →
       step s = closeTurn (.next u.passClock)))

namespace Sys2Proof.Machine

/-- R366, R387: groups follow their warps. A Running group has a warp that has not started or a fragment that can go on; in a Waiting
group every warp has started and stands at a blocking point; a group is noted as hung exactly while it is. No fragment issues. -/
def GroupsFollow (s : State) : Prop :=
  s.cur = none ∧ ∀ g ∈ s.groups,
    (g.state = .waiting → (∃ w ∈ s.warps, w.group = g.uid) ∧ ∀ w ∈ s.warps, w.group = g.uid → w.started = true ∧ w.stuck = true) ∧
    (g.state = .running → (∀ w ∈ s.warps, w.group ≠ g.uid) ∨ ∃ w ∈ s.warps, w.group = g.uid ∧ (w.started = false ∨ w.stuck = false)) ∧
    (g.hungSince.isSome = true ↔ s.isHung g = true)

end Sys2Proof.Machine

/-- Every step leaves the groups following their warps. -/
def Obligations.StepKeepsGroupsFollowing : Prop :=
  ∀ s s' : State, GroupsFollow s → step s = .next s' → GroupsFollow s'

/-- R343, R421, R436, R448, R454, R455, R459: what reset leaves where the spec gives it: storage reads zero, links 0 and 13 are Up and
the others Down, FOFFER is 0x1F, no CREATE or partition write is accepted before the start, samplers are off with 64 entries, every
mailbox is Unconfigured and every clock nominal. Groups follow their warps, and store numbers rise.
The model's own choices that it rests on: log entry 66. -/
def Obligations.ResetValues : Prop :=
  (∀ a, a < 0x6000000000 → memRead State.reset.mem a = 0) ∧
  (∀ n, n < 14 → (State.reset.links[n]?).map Link.state = some (if n = 0 ∨ n = 13 then .up else .down)) ∧
  State.reset.foffer = 0x1F ∧ State.reset.started = false ∧ State.reset.partst = 0 ∧
  (∀ p, p < 6 → (State.reset.part p).smpcfg = 0 ∧ (State.reset.part p).smpbase = 0 ∧ (State.reset.part p).smpsize = 64 ∧
    (State.reset.part p).shead = 0 ∧ (State.reset.part p).stail = 0 ∧ (State.reset.part p).sdrop = 0 ∧ (State.reset.part p).sidle = 0) ∧
  (∀ m, State.reset.mbox? m = none) ∧ (∀ q, q < 6 → State.reset.clkStep.getD q 0 = 16) ∧
  State.reset.ctxs = [] ∧ State.reset.groups = [] ∧ State.reset.warps = [] ∧ State.reset.kernels = [] ∧ State.reset.barred = false ∧
  Memory.wf State.reset.mem = true ∧ GroupsFollow State.reset ∧ ∀ c < 48, State.reset.storesOrdered c

/-! ### Events of waiting fragments, store buffers and links -/

/-- R110, R346, R377, R434, R445: what ends or marks a wait from outside the fragment. A wait for the host or a peer becomes a blocking point
after RWTH; a read goes on once every home has answered and its way back carries the answers, with a permit for each, and an atomic is
written then; a wait at a home slice ends when no copy owns the line, the host does not hold it, or no release tag of it is left to drain.
The model's own choices that it rests on: log entry 88 (the permits of the answers). -/
def Obligations.WaitingEvents : Prop :=
  ∀ (s : State) (uid id m : Nat),
    (∀ w f, s.warp? uid = some w → w.frag? id = some f →
      (64 ≤ f.readyFor → f.promoted = none →
        exec (.fragmentPromotion uid id) s = .next { s.setWarp (w.setFrag { f with promoted := some s.fresh }) with fresh := s.fresh + 1 }) ∧
      (f.readyFor < 64 → exec (.fragmentPromotion uid id) s = .next s) ∧
      (∀ a v, f.wait = .signal a v → s.signalDue w a v = true → exec (.sigwaitPoll uid id) s = .next (s.setWarp (w.setFrag f.retry))) ∧
      (∀ a v, f.wait = .signal a v → s.signalDue w a v = false → exec (.sigwaitPoll uid id) s = .next s) ∧
      (∀ g c since atomic lanes, s.group? w.group = some g → s.ctxOf g = some c → f.wait = .remote since atomic false lanes →
        let outside := ∃ l ∈ lanes, 2 ^ 52 ≤ l.2.2
        (s.olderThan since c.rwth.toNat = true → outside →
          exec (.remoteWaitThreshold uid id) s = .next (s.setWarp (w.setFrag { f with wait := .remote since atomic true lanes }))) ∧
        (s.olderThan since c.rwth.toNat = false ∨ ¬ outside → exec (.remoteWaitThreshold uid id) s = .next s)) ∧
      ((∀ r ∈ s.remotes, r.frag ≠ { warp := uid, frag := id }) →
        (∀ since late lanes, f.wait = .remote since false late lanes →
          let open_ := ∃ g ∈ s.flows, ∃ y ∈ g.held, y.performed = false ∧ y.kind = .read { warp := uid, frag := id }
          let cut := ∃ l ∈ lanes, s.reachable (dieOf w.core) l.2.2 = false
          let back := s.allReturn (dieOf w.core) 0 ((distinct (lanes.map (fun l => lineOf l.2.2))).map (fun l => 128 * l))
          (∀ u, ¬ open_ → back = some u →
            exec (.lineRequestComplete w.core uid id) s = .next (u.setWarp (w.setFrag { f.retry with granted := true, denied := f.denied }))) ∧
          (open_ ∨ cut ∨ back = none → exec (.lineRequestComplete w.core uid id) s = .next s)) ∧
        (∀ l, f.wait = .line l → (s.copyOwns l = false → exec (.lineRequestComplete w.core uid id) s = .next (s.setWarp (w.setFrag f.retry))) ∧
          (s.copyOwns l = true → exec (.lineRequestComplete w.core uid id) s = .next s)) ∧
        (∀ l, f.wait = .snoop l → (l ∉ s.hostHeld → exec (.lineRequestComplete w.core uid id) s = .next (s.setWarp (w.setFrag f.retry))) ∧
          (l ∈ s.hostHeld → exec (.lineRequestComplete w.core uid id) s = .next s)) ∧
        (∀ l, f.wait = .promotion l →
          ((∀ t ∈ s.tags, t.line = l → t.draining = false) →
            exec (.lineRequestComplete w.core uid id) s = .next (s.setWarp (w.setFrag f.retry))) ∧
          ((∃ t ∈ s.tags, t.line = l ∧ t.draining = true) → exec (.lineRequestComplete w.core uid id) s = .next s)))) ∧
    (∀ r, s.remotes.find? (fun y => y.frag == { warp := uid, frag := id }) = some r →
      let whole := ∀ q ∈ r.reqs, ∃ o ∈ r.olds, o.1 = q.lane
      let cut := ∃ q ∈ r.reqs, s.reachable (dieOf r.core) q.key = false
      let back := s.allReturn (dieOf r.core) 1 (r.reqs.map AtomReq.key)
      (∀ u, whole → back = some u → exec (.lineRequestComplete r.core uid id) s = .next (u.atomicReply r)) ∧
      (¬ whole ∨ cut ∨ back = none → exec (.lineRequestComplete r.core uid id) s = .next s)) ∧
    (∀ (die cls : Nat) (keys : List Nat) (u : State), s.allReturn die cls keys = some u →
      u.mem = s.mem ∧ u.warps = s.warps ∧ u.ctxs = s.ctxs ∧ u.groups = s.groups ∧ u.flows = s.flows ∧
      ((∀ k ∈ keys, away die k = false) → u = s) ∧ ∀ k ∈ keys, s.reachable die k = true) ∧
    (∀ b pre a post, s.mbox? m = some b → b.msgs = pre ++ a :: post → (∀ y ∈ pre, y.receivable = true) → a.receivable = false →
      exec (.messageReceivable m) s = .next (s.setMbox { b with msgs := pre ++ { a with receivable := true } :: post }))

/-- R128 to R130: the register arbiter of a core. It acts once every warp is at a blocking point and some oldest claim cannot be met. It
drops the oldest tag first; with no tag, it evicts the group placed last when there are two; with one group, it does nothing while a warp
of the group, on any of its cores, claims nothing, and with every warp claiming the warp of this core with the largest claim, the lowest slot among equals, faults with `BUDGETDL`. -/
def Obligations.ArbiterResolvesDeadlock : Prop :=
  ∀ (s : State) (core : Nat),
    (s.arbiterActs core = false → exec (.registerArbiter core) s = .next s) ∧
    (s.arbiterActs core = true →
      (∀ x rest, s.liveTags core = x :: rest →
        ((s.arbiterDrop x.1 x.2).claimsAt core).length < (s.claimsAt core).length →
        exec (.registerArbiter core) s = .next (s.arbiterDrop x.1 x.2)) ∧
      (s.liveTags core = [] → 2 ≤ (s.groupsOn core).length →
        ∃ g ∈ s.groupsOn core, (∀ h ∈ s.groupsOn core, h.placedAt ≤ g.placedAt) ∧
          exec (.registerArbiter core) s = .next (s.beginEviction g.uid)) ∧
      (s.liveTags core = [] → (s.groupsOn core).length ≤ 1 →
        (∃ g ∈ s.groupsOn core, ∃ w ∈ s.warps, w.group = g.uid ∧ w.largestClaim = 0) → exec (.registerArbiter core) s = .next s) ∧
      (s.liveTags core = [] → (s.groupsOn core).length ≤ 1 → s.warpsOn core ≠ [] →
        (∀ g ∈ s.groupsOn core, ∀ w ∈ s.warps, w.group = g.uid → 0 < w.largestClaim) →
        ∃ w ∈ s.warpsOn core, (∀ v ∈ s.warpsOn core, v.largestClaim < w.largestClaim ∨ (v.largestClaim = w.largestClaim ∧ w.slot ≤ v.slot)) ∧
          exec (.registerArbiter core) s = .next (s.budgetDeadlock w)))

/-- R256, R268, R440: entries 4,096 clocks old leave their buffer, when none is older for the same bytes, no release waits and no home holds
their line; a drain request makes the tagged core's entries up to the tag's leave, and its reply clears the tag once they have performed
and are acknowledged; the host reads and writes device memory in whole lines that no copy owns, over link 13, and beyond die 0 over link
0, with a permit for each message, and gives them back the same way; it reads and writes its own memory but for lines that the device
holds.
The model's own choices that it rests on: log entries 11, 82, 84, 88 (the permits of the host's own accesses). -/
def Obligations.StoreBufferAndHostEvents : Prop :=
  ∀ (s : State) (core line addr : Nat) (data : List Byte) (write : Bool),
    (let free := fun (e : StoreEntry) => e.rel.getD 0 = 0 ∧ s.lineHeld core e.seq (e.key / 128) = false
     s.storesOrdered core → (∀ e ∈ s.sbuf, e.core = core → free e) →
       ∃ t, exec (.storeBufferTimeout core) s = .next t ∧ ∀ e ∈ t.sbuf, e.core = core → s.clock core < e.since + 4096) ∧
    ((∀ c, s.storesOrdered c) → ∃ t, exec (.storeBufferTimeout core) s = .next t ∧
      ∀ e ∈ s.sbuf, s.clock core < e.since + 4096 ∨ e.core ≠ core →
        (∀ d ∈ s.sbuf, d.core = e.core → e.seq < d.seq → d.rel.getD 0 = 0 ∧ rangesMeet d.key d.data.length e.key e.data.length = false) →
        e.due = false → e ∈ t.sbuf) ∧
    (∀ g, s.tagsOf line = [g] →
      let there := s.dieCrosses (dieOfKey (128 * line)) (dieOf g.core)
      let back := s.dieCrosses (dieOf g.core) (dieOfKey (128 * line))
      (g.draining = true → g.drained = false → there = true → s.storesOrdered g.core →
        (∀ e ∈ s.sbuf, e.core = g.core → e.rel.getD 0 = 0 ∧ s.lineHeld g.core e.seq (e.key / 128) = false) →
        ∃ t, exec (.promotionDrainRequest line) s = .next t ∧ ∀ e ∈ t.sbuf, e.core = g.core → g.seq < e.seq) ∧
      (g.draining = false ∨ g.drained = true ∨ there = false → exec (.promotionDrainRequest line) s = .next s) ∧
      (g.drained = true → s.unperformed g.core (g.seq + 1) = false → s.unacknowledged g.core (g.seq + 1) = false → back = true →
        ∃ t, exec (.promotionDrainReply line) s = .next t ∧ t.tags = s.tags.filter (fun x => x.line != line) ∧
          t.mem = s.mem ∧ t.sbuf = s.sbuf ∧ t.warps = s.warps) ∧
      (g.drained = false ∨ s.unperformed g.core (g.seq + 1) = true ∨ s.unacknowledged g.core (g.seq + 1) = true ∨ back = false →
        exec (.promotionDrainReply line) s = .next s)) ∧
    (s.tagsOf line = [] → exec (.promotionDrainRequest line) s = .next s ∧ exec (.promotionDrainReply line) s = .next s) ∧
    (data ≠ [] → addr + data.length ≤ 0x6000000000 →
      let mine := fun (l : Nat) => addr / 128 ≤ l ∧ 128 * l < addr + data.length
      let path := s.linkUp 13 = true ∧ ∀ l, mine l → 0x3000000000 ≤ 128 * l → s.linkUp 0 = true
      let in_ := s.letIn .host (if write then 1 else 0) (linesOf addr data.length)
      (in_.isSome = true → (∀ l, mine l → s.copyOwns l = false) →
        ∃ t, exec (.hostMemAccess addr data write) s = .next t ∧ t.mem = (if write then memWrites s.mem addr data else s.mem) ∧
          (∀ l, mine l → l ∈ t.hostHeld) ∧ (∀ l ∈ s.hostHeld, l ∈ t.hostHeld) ∧ t.warps = s.warps ∧ t.ctxs = s.ctxs ∧ t.sbuf = s.sbuf) ∧
      (¬ path ∨ in_ = none ∨ (∃ l, mine l ∧ s.copyOwns l = true) → exec (.hostMemAccess addr data write) s = .next s)) ∧
    (data ≠ [] → 2 ^ 52 ≤ addr → addr + data.length ≤ 2 ^ 53 →
      let mine := fun (l : Nat) => addr / 128 ≤ l ∧ 128 * l < addr + data.length
      ((∀ l, mine l → s.deviceHolds l = false) →
        exec (.hostMemAccess addr data write) s = .next (if write then { s with mem := memWrites s.mem addr data } else s)) ∧
      ((∃ l, mine l ∧ s.deviceHolds l = true) → exec (.hostMemAccess addr data write) s = .next s)) ∧
    (let path := s.linkUp 13 = true ∧ (dieOfKey (128 * line) = 0 ∨ s.linkUp 0 = true)
     (path → ∃ t, exec (.backInvalidateResponse line) s = .next t ∧ line ∉ t.hostHeld ∧
       (∀ l ∈ s.hostHeld, l ≠ line → l ∈ t.hostHeld) ∧ t.mem = s.mem ∧ t.warps = s.warps) ∧
     (¬ path → exec (.backInvalidateResponse line) s = .next s))

/-- R273, R441, R442, R444: messages of a flow are delivered once, those of classes 1 and 3 in order, over links that carry traffic, with a
permit for every flit on each. A read stays behind its core's older store to its line. A delivered message performs unless its home holds
it back; the ones that have performed at the front are acknowledged, on a permit of the far side of each link. A peer's refusal spends the permits, writes nothing, and posts one
record for the operation of a warp, or is noted in its copy.

R436, R437, R442, R443: the links. An error or an audit that finds a permit lost retrains, which takes every permit; training ends Up or
Degraded with every permit, and its third failure in a row takes the link Down; the driver enables and disables all links but link 0.
The model's own choices that it rests on: log entries 15, 31, 50, 84, 85, 86, 88 (the permits of link 0, of each die its own, and of
what comes back), 89 (what a message that has arrived waits for at its home), 90 (the order of a copy's writes) and 99 (one record for
one operation, and its words). -/
def Obligations.FlowAndLinkEvents : Prop :=
  (∀ (s : State) (id : Nat) (f : Flow), findKey Sys2Proof.Machine.Flow.id id s.flows = some f →
     (∀ n, s.flowLink f = some n →
       let way := linksVia f.die n
       (way.all (s.permittedBack f.die f.cls) = true → (∃ m ∈ f.held.head?, m.performed = true) →
         ∃ t, exec (.flowAcknowledgement id) s = .next t ∧
           t.flows = s.flows.map (fun x => if x.id = id then { x with held := x.held.dropWhile Message.performed } else x) ∧
           t.mem = s.mem ∧ t.warps = s.warps ∧ t.ctxs = s.ctxs ∧ (∀ l, l ∉ way → t.links[l]? = s.links[l]?) ∧
           ∀ l ∈ way, ∃ a b, s.links[l]? = some a ∧ t.links[l]? = some b ∧ b.heldFar l f.die f.cls + 1 = a.heldFar l f.die f.cls) ∧
       (way.all (s.permittedBack f.die f.cls) = false ∨ (∀ m ∈ f.held.head?, m.performed = false) →
         exec (.flowAcknowledgement id) s = .next s)) ∧
     (f.cls % 2 = 1 → f.held.length ≤ 32768 → s.arriving f = f.held.find? (fun m => !m.delivered)) ∧
     (∀ m, s.arriving f = some m → m ∈ f.held.take 32768 ∧ m.delivered = false) ∧
     (∀ m r, f.cls % 2 = 0 → s.arriving f = some m → m.kind = .read r →
       ∀ g ∈ s.flows, ∀ e ∈ g.held, e.uid < m.uid → e.ordered = true → e.core = m.core → e.key / 128 = m.key / 128 → e.performed = true) ∧
     (∀ m n, s.arriving f = some m → s.flowLink f = some n → (linksVia f.die n).all (s.permitted f.die f.cls) = true →
       let spent := fun (t : State) =>
         (∀ l, l ∉ linksVia f.die n → t.links[l]? = s.links[l]?) ∧
         ∀ l ∈ linksVia f.die n, ∃ a b, s.links[l]? = some a ∧ t.links[l]? = some b ∧ b.held l f.die f.cls < a.held l f.die f.cls
       let once := fun (t : State) => ∀ g ∈ t.flows, ∀ x ∈ g.held, x.uid = m.uid → x.delivered = true
       let done := fun (t : State) => ∀ g ∈ t.flows, ∀ x ∈ g.held, x.uid = m.uid → x.performed = true
       (∃ t, exec (.flowMessageArrival id) s = .next t ∧ spent t ∧ once t ∧ t.ctxs = s.ctxs ∧ t.warps = s.warps ∧
         (s.homeHolds m = true → t.mem = s.mem) ∧
         (s.homeHolds m = false → done t ∧
           t.mem = (match m.kind with
             | .read _ => s.mem
             | .copyRead _ => s.mem
             | .prefetch => s.mem
             | .notice => s.mem
             | .write _ => memWrites s.mem m.key m.data
             | .copyWrite _ _ none => memWrites s.mem m.key m.data
             | .copyWrite _ _ (some op) =>
               memSetNat s.mem m.key m.data.length (reduced op (memNat s.mem m.key m.data.length) (natLE m.data))
             | .atomic _ _ r _ => memSetNat s.mem r.key r.size (r.value (memNat s.mem r.key r.size))))) ∧
       (∀ p, f.target = .peer p →
         (m.from_.told = true → ∃ t, exec (.peerRefusal id) s = .next t ∧ t.mem = s.mem ∧ t.ctxs = s.ctxs ∧ spent t ∧ once t ∧ done t) ∧
         (∀ rel, m.kind = .write rel → m.from_.told = false →
           ∃ u : State, exec (.peerRefusal id) s = .next (u.peerRefused m.from_ 1 m.from_.va) ∧ u.mem = s.mem ∧ u.ctxs = s.ctxs ∧
             spent u ∧ once u ∧ done u ∧
             ∀ g ∈ u.flows, ∀ x ∈ g.held, x.from_.core = m.from_.core → x.from_.op = m.from_.op → x.from_.told = true) ∧
         (∀ c k red y, m.kind = .copyWrite c k red → s.copy? c = some y →
           ∃ t y', exec (.peerRefusal id) s = .next t ∧ t.mem = s.mem ∧ t.ctxs = s.ctxs ∧ spent t ∧ once t ∧ done t ∧
             t.copy? c = some y' ∧ y'.refusedMask = y.refusedMask ||| 2 ^ k ∧ y'.refusedVa = some (y.refusedVa.getD m.from_.va)))) ∧
     (∀ n, s.flowLink f = some n → (linksVia f.die n).all (s.permitted f.die f.cls) = false →
       exec (.flowMessageArrival id) s = .next s ∧ exec (.peerRefusal id) s = .next s) ∧
     (s.flowLink f = none →
       exec (.flowMessageArrival id) s = .next s ∧ exec (.flowAcknowledgement id) s = .next s ∧ exec (.peerRefusal id) s = .next s)) ∧
  (∀ (s : State) (n c : Nat) (c0 c1 c2 c3 : ClassAudit) (full : Bool) (l : Link), s.links[n]? = some l →
     let put := fun (x : Link) => Host.Outcome.next { s with links := s.links.setIfInBounds n x }
     let off := Vector.replicate 4 0
     let bump := if l.rtrn = 255 then 255 else l.rtrn + 1
     let retrained := { l with state := .training, rtrn := bump, fails := 0, permits := off, far := off }
     let carries := l.state = .up ∨ l.state = .degraded
     let total := (permitTable n).getD c 0
     (carries → exec (.linkError n) s = put retrained) ∧ (¬ carries → exec (.linkError n) s = .next s) ∧
     (l.state = .training →
       exec (.linkTrainingDone n full) s =
         put { l with state := if full then .up else .degraded, fails := 0, permits := permitTable n, far := permitTable n } ∧
       (l.fails < 2 → exec (.linkTrainingFail n) s = put { l with fails := l.fails + 1 }) ∧
       (2 ≤ l.fails → exec (.linkTrainingFail n) s = put { l with state := .down, fails := 0 })) ∧
     (l.state ≠ .training → exec (.linkTrainingDone n full) s = .next s ∧ exec (.linkTrainingFail n) s = .next s) ∧
     (n ≠ 0 → s.firmware.verified = true →
       (l.state = .down → exec (.linkEnable n) s = put { l with state := .training, enabled := true, fails := 0 }) ∧
       (l.state ≠ .down → exec (.linkEnable n) s = put { l with enabled := true })) ∧
     (s.firmware.verified = false → exec (.linkEnable n) s = .next s ∧ exec (.linkDisable n) s = .next s) ∧
     (n ≠ 0 → s.firmware.verified = true → exec (.linkDisable n) s = put { l with state := .down, enabled := false, fails := 0, permits := off, far := off }) ∧
     (n = 0 → exec (.linkEnable n) s = .next s ∧ exec (.linkDisable n) s = .next s) ∧
     (carries → l.permits.getD c 0 < total →
       exec (.permitReturn n c) s = put { l with permits := l.permits.setIfInBounds c (l.permits.getD c 0 + 1) }) ∧
     (carries → total ≤ l.permits.getD c 0 → l.far.getD c 0 < total →
       exec (.permitReturn n c) s = put { l with far := l.far.setIfInBounds c (l.far.getD c 0 + 1) }) ∧
     (¬ carries ∨ (total ≤ l.permits.getD c 0 ∧ total ≤ l.far.getD c 0) → exec (.permitReturn n c) s = .next s) ∧
     (let whole := fun (k : Nat) => (permitTable n).getD (k / 2) 0
      let found := fun (k : Nat) =>
        let x := [c0, c1, c2, c3].getD (k / 2) c0
        if k % 2 = 1 then l.far.getD (k / 2) 0 + x.receivedOccupied + x.receivedReturning
        else l.permits.getD (k / 2) 0 + x.sentOccupied + x.sentReturning
      (¬ carries → exec (.permitAudit n c0 c1 c2 c3) s = .next s) ∧
      (carries → (∀ k, k < 8 → found k = whole k) → exec (.permitAudit n c0 c1 c2 c3) s = put { l with audits := l.audits + 1 }) ∧
      (∀ k, carries → k < 8 → found k ≠ whole k → (∀ j, j < k → found j = whole j) →
        let delta := max (-32768) (min ((found k : Int) - whole k) 32767)
        let r : Record :=
          { pc := 0, lanes := 0, code := 13, frag := 0, seq := 0
            detail := BitVec.ofNat 32 (n * 2 ^ 24 + k / 2 * 2 ^ 22 + (if k % 2 = 1 then 2 ^ 21 else 0) + (delta % 65536).toNat)
            aux := l.audits + 1, addr := 0, who := 0, kid := 0, gx := 0, gy := 0, gz := 0, gridn := 0, behind := none, own := false }
        exec (.permitAudit n c0 c1 c2 c3) s =
          .next ((s.lostPermitTo n).foldl (fun t x => t.postRecord x.1 x.2 r (Live.plain 0 13))
            { s with links := s.links.setIfInBounds n { retrained with audits := l.audits + 1 } }))))

/-! ### Events of groups: eviction, placement, retirement -/

/-- R272, R367, R378, R379, R396, R397: a Waiting group under a pre-emption request is evicted when the save area has room: it takes the
lowest offset and entry, and every store of its cores, of any agent, is due: it performs unless a home holds its line or a release waits.
Without room SAVEFULL is raised and nothing else happens. Once nothing of the group is in flight and those stores have performed, its
record and then its directory entry are written, no tag names those stores, its warps leave their cores and EVCT counts.

R380, R385, R387, R404: requests that stand and what becomes late.
The model's own choices: that every store of the group's cores, of any agent, is due and awaited is log entry 98, where R272 names the
stores of the group; the path over link 0 by which die 0's headbox directs another die, and which die's headbox writes the record, are log
entries 84 and 107; how often HUNG is raised is log entry 111; when the driver reaches the device is log entry 108; the save area's tables and
the rest are log entries 16, 41 and 83. -/
def Obligations.EvictionEvents : Prop :=
  (∀ (s : State) (gid : Nat) (g : Group) (c : Ctx) (grid : Grid),
     s.group? gid = some g → s.ctxOf g = some c → s.grid? g.grid = some grid → c.part = g.part → c.slot = g.ctx →
     (g.preempt = [] ∨ g.state ≠ .waiting ∨ g.kills ≠ [] → exec (.eviction gid) s = .next s) ∧
     (g.preempt ≠ [] → g.state = .waiting → g.kills = [] → c.room (s.recordSize g grid.kd) = none →
       exec (.eviction gid) s = .next (s.saveFull g c)) ∧
     (c.room (s.recordSize g grid.kd) ≠ none → s.mayDirect g.headboxDie = false → exec (.eviction gid) s = .next s) ∧
     (∀ o e, g.preempt ≠ [] → g.state = .waiting → g.kills = [] → c.room (s.recordSize g grid.kd) = some (o, e) →
       s.mayDirect g.headboxDie = true →
       let own := g.places.map Place.core
       ∃ t g', exec (.eviction gid) s = .next t ∧ t.group? gid = some g' ∧ g'.state = .evicting ∧
         g'.saved = some (o, s.recordSize g grid.kd, e) ∧ g'.storesAt = own.map s.storeNumber ∧
         (∀ x ∈ t.sbuf, x.core ∈ own → x.due = true) ∧
         ((∀ k ∈ own, s.storesOrdered k) →
           (∀ x ∈ s.sbuf, x.core ∈ own → x.rel.getD 0 = 0 ∧ s.lineHeld x.core x.seq (x.key / 128) = false) →
           ∀ x ∈ t.sbuf, x.core ∉ own)) ∧
     (s.recordReady g = false → exec (.phaseRecordComplete gid) s = .next s) ∧
     (∀ o size e, g.saved = some (o, size, e) → s.recordReady g = true → c.savebase.toNat + o + size ≤ 0x6000000000 → g.doomed = false →
       let ws := s.warps.filter (fun w => w.group == gid)
       let n := 128 + g.span * grid.kd.sectionBytes + (ws.map Warp.partBytes).sum
       let written := s.writeRecord c g (o, size, e) (s.phaseRecord g grid) n
       (written = none → exec (.phaseRecordComplete gid) s = .next s) ∧
       (written ≠ none → ∃ t g', exec (.phaseRecordComplete gid) s = .next t ∧
         t.mem = memSplice (memSplice s.mem (c.savebase.toNat + o) n (s.phaseRecord g grid)) (c.savebase.toNat + (0x1000 + 8 * e)) 8
           (cellsOf 0 (bytesLE 8 o)) ∧
         t.group? gid = some g' ∧ g'.state = .evicted ∧ g'.places = [] ∧ g'.evct = satInc g.evct ∧ (∀ w ∈ t.warps, w.group ≠ gid) ∧
         ∀ x ∈ t.tags, ∀ r ∈ (g.places.map Place.core).zip g.storesAt, x.core = r.1 → r.2 ≤ x.seq))) ∧
  (∀ (s : State) (gid : Nat) (g : Group) (c : Ctx), s.group? gid = some g → s.ctxOf g = some c →
     (let due := fun (p : Preempt) =>
        p.late = false ∧ (g.state = .placed ∨ g.state = .running ∨ g.state = .waiting) ∧ s.olderThan p.since c.pdl.toNat = true
      (∀ pre p post, g.preempt = pre ++ p :: post → (∀ x ∈ pre, ¬ due x) → due p →
        exec (.preemptLate gid) s = .next ((s.setGroup { g with preempt := pre ++ { p with late := true } :: post }).groupEvent g 1)) ∧
      ((∀ p ∈ g.preempt, ¬ due p) → exec (.preemptLate gid) s = .next s)) ∧
     (∀ t, g.hungSince = some t →
       let due := g.hungRaised = false ∧ s.isHung g = true ∧ s.olderThan t c.pdl.toNat = true
       (due → exec (.hung gid) s = .next ((s.setGroup { g with hungRaised := true }).groupEvent g 2)) ∧
       (¬ due → exec (.hung gid) s = .next s)) ∧
     (g.state ≠ .evicted → g.state ≠ .evicting → s.driverReaches = true →
       exec (.preemptionWithdraw gid) s = .next (s.setGroup { g with preempt := [] })) ∧
     (g.state = .evicted ∨ g.state = .evicting ∨ s.driverReaches = false → exec (.preemptionWithdraw gid) s = .next s) ∧
     (∀ since late lanes, g.state = .evicted → g.resumable = none → .remote since false late lanes ∈ g.savedWaits →
       g.evictedAt + 2700 * c.evth.toNat ≤ s.ticks →
       exec (.evthAfterEviction gid) s =
         .next { s.setGroup { g with resumable := some s.fresh, unplacedAt := s.ticks } with fresh := s.fresh + 1 }) ∧
     (s.ticks < g.evictedAt + 2700 * c.evth.toNat → exec (.evthAfterEviction gid) s = .next s))

/-- R368 to R370: the quire chosen for a group is one of its partition's that can take it, and among the first four in the order of load
none has less load and sensor weight. A group placed holds the cores of that quire with the fewest occupied granules, and the pointer moves.

R13, R369, R378: an attempt places the first unplaced group of the highest priority that has one on the quire chosen for it, and the group
stays where the rest of the attempt goes on; it ends there when no group is left. A group that no quire takes leads to an eviction or a
request, and lower priorities follow unless a group of its priority has been unplaced longer than its context's EVTH.
The model's own choices: that a placement waits while link 0 cannot carry die 0's direction to the quire is log entry 107, and what two
requests of one cause are is log entry 42. -/
def Obligations.PlacementChoosesQuire : Prop :=
  ∀ (s : State) (g : Group) (grid : Grid),
    (∀ q, s.chosenQuire g grid.kd = some q →
      let cost := fun r => s.quireLoad r + (s.weights.getD r 0).toNat
      q < 6 ∧ (s.parts.getD g.part Part.reset).mask.getLsbD q = true ∧ s.heldOut.getLsbD q = false ∧ s.quireTakes g grid.kd q = true ∧
        ∀ r ∈ (s.baseOrder g grid.kd).take 4, cost q ≤ cost r) ∧
    (s.chosenQuire g grid.kd = none → ∀ q, q < 6 → (s.parts.getD g.part Part.reset).mask.getLsbD q = true →
      s.heldOut.getLsbD q = false → s.quireTakes g grid.kd q = false) ∧
    (∀ q, s.group? g.uid = some g → g.part < 6 →
      let t := s.placeOn g grid q
      (∃ g', t.group? g.uid = some g' ∧ g'.state = (if g.state = .evicted then .resumed else .placed) ∧
        g'.places.map Place.core = (List.range grid.kd.span).map (fun p => (s.spanCores q grid.kd.span).getD p 0)) ∧
      (t.part g.part).pointer = q) ∧
    (∀ part, (∀ p, p < 4 → (s.readSignals part).unplacedAt part p = []) →
      exec (.placementAttempt part) s = .next (s.readSignals part)) ∧
    (∀ part prio rest,
      let r := s.readSignals part
      prio < 4 → (∀ p, p < prio → r.unplacedAt part p = []) → r.unplacedAt part prio = g :: rest → r.grid? g.grid = some grid →
      (∀ q, r.chosenQuire g grid.kd = some q → r.mayDirect (q / 3) = true →
        let u := r.placeOn g grid q
        ((∀ p, p < 4 → u.unplacedAt part p = []) → exec (.placementAttempt part) s = .next u) ∧
        ((∀ x ∈ s.groups, x.uid < s.fresh) →
          ∃ t g', exec (.placementAttempt part) s = .next t ∧ t.group? g.uid = some g' ∧
            g'.state = (if g.state = .evicted then .resumed else .placed) ∧
            g'.places.map Place.core = (List.range grid.kd.span).map (fun p => (r.spanCores q grid.kd.span).getD p 0))) ∧
      (∀ q, r.chosenQuire g grid.kd = some q → r.mayDirect (q / 3) = false → exec (.placementAttempt part) s = .next r) ∧
      (r.chosenQuire g grid.kd = none →
        let u := r.attemptFailed part g
        ((∃ x ∈ r.unplacedAt part prio, r.overdue x = true) → exec (.placementAttempt part) s = .next u) ∧
        ((∀ x ∈ r.unplacedAt part prio, r.overdue x = false) → (∀ p, prio < p → p < 4 → u.unplacedAt part p = []) →
          exec (.placementAttempt part) s = .next u))) ∧
    (∀ part, ∃ t, exec (.placementAttempt part) s = .next t)

/-- R365, R373, R386, R430: a resumed group reads its record back once the save area is within reach, or ends its context when the record
breaks R386; a pending attach is served at the first position that fits; a retiring group with nothing in flight, and its stores
performed, is gone, and its grid counts it.
The model's own choices that it rests on: log entries 70, 75, 83, 84, 107. -/
def Obligations.GroupLifeEvents : Prop :=
  ∀ (s : State) (gid : Nat) (g : Group) (grid : Grid), s.group? gid = some g → s.grid? g.grid = some grid →
    (∀ c saved, s.ctxOf g = some c → g.saved = some saved →
      g.state ≠ .resumed ∨ c.state ≠ .active ∨ s.readRecord c g.headboxDie saved = none → exec (.groupRestore gid) s = .next s) ∧
    (∀ c saved m read, s.ctxOf g = some c → g.saved = some saved → g.state = .resumed → c.state = .active →
      s.readRecord c g.headboxDie saved = some (m, read) →
      let entry := c.savebase.toNat + (0x1000 + 8 * saved.2.2)
      let at_ := c.savebase.toNat + memNat s.mem entry 8
      let ws := s.restoredWarps g c grid.kd m
      let back := (read.restoreGroup g c ws (g.restoredPlaces grid.kd m)).freeRecord g
      m = memSlice s.mem at_ saved.2.1 ∧
      (g.badRecord grid.kd m = true → exec (.groupRestore gid) s = .next (read.machineCheck g.part g.ctx at_)) ∧
      (g.badRecord grid.kd m = false → s.locksFree g ws = false ∨ back = none → exec (.groupRestore gid) s = .next s) ∧
      (g.badRecord grid.kd m = false → s.locksFree g ws = true → back ≠ none → g.kills = [] → c.answers = [] →
        c.part = g.part → c.slot = g.ctx →
        ∃ t g', exec (.groupRestore gid) s = .next t ∧ t.group? gid = some g' ∧ g'.state = .running ∧ g'.saved = none ∧
          t.warps = (ws.foldl State.setWarp s).warps ∧ t.mem = memSplice s.mem entry 8 (cellsOf 0 (bytesLE 8 0)))) ∧
    (∀ r p, 0 < g.pend.getD (roleNat r) 0 → g.state = .running ∨ g.state = .waiting → p < g.span → s.attachFits g grid.kd r p = true →
      (∀ q, q < p → s.attachFits g grid.kd r q = false) →
      ∃ t w, exec (.attachServed gid r) s = .next t ∧ w ∈ t.warps ∧ w.group = gid ∧ w.role = r ∧ w.pos = p ∧ w.core = g.coreAt p ∧
        w.started = false ∧
        w.frags.map Frag.pc = [(grid.code + BitVec.ofNat 64 (grid.kd.attach.getD (roleNat r) 0).toNat) &&& 0xFFFFFFFFFFFFFFFC] ∧
        ∀ i, i < w.index → ∃ v ∈ s.warps, v.group = gid ∧ v.role = r ∧ v.index = i) ∧
    (∀ r, g.pend.getD (roleNat r) 0 = 0 → exec (.attachServed gid r) s = .next s) ∧
    (g.state ≠ .retiring ∨ s.groupBusy g = true → exec (.groupRetire gid) s = .next s) ∧
    (g.state = .retiring → s.groupBusy g = false →
      let t := s.performWhere (fun e => e.group == gid)
      (t.storesLeft g = true → exec (.groupRetire gid) s = .next t) ∧
      (t.storesLeft g = false →
        ∃ t' grid', exec (.groupRetire gid) s = .next t' ∧ t'.group? gid = none ∧ t'.grid? g.grid = some grid' ∧
          grid'.retired = grid.retired + 1))

/-! ### Events of queues, kernels and grids -/

/-- R424, R426, R427, R430, R242: submission queues. A packet is read and Blocked, or stops its queue with the first cause that it meets.
Among the ready packets the next is one of the highest priority, the first in turn after the pointer of that priority. A barrier packet
completes, a signal packet adds; a shoot-down drops the translations of its range, its stores become due, and it completes when nothing that
used them is under way and no cache holds one, each once its notice reaches the partition's quires on the other die.
The model's own choices: what a headbox's accesses send over link 0 is log entry 84, that a packet which cannot be taken holds no other
queue back is log entry 115, and the rest are log entries 18, 23 and 45. -/
def Obligations.PacketEvents : Prop :=
  ∀ (s : State) (part slot n : Nat) (c : Ctx), s.ctx? part slot = some c →
    let q := c.queueOr n
    let reads := c.serves = true ∧ q.en = true ∧ q.stop = false ∧ q.blocked = none ∧ q.future = none ∧ q.shooting = none ∧ q.rptr ≠ q.wptr
    let put := fun (x : SubQueue) => Host.Outcome.next (s.setCtx (c.putQueue x))
    (¬ reads → exec (.packetRead part slot n) s = .next s) ∧
    (∀ bs u, reads → s.headboxRead c (q.entryAt q.rptr.toNat) 64 = .ok (bs, u) →
      let p : Packet := BitVec.ofNat 512 (natLE bs)
      let put := fun (x : SubQueue) => Host.Outcome.next (u.setCtx (c.putQueue x))
      (u.packetCause c q p = none → exec (.packetRead part slot n) s = put { q with blocked := some p, rptr := q.rptr + 1 }) ∧
      (∀ x, u.packetCause c q p = some x → exec (.packetRead part slot n) s = put { q with stop := true, cause := BitVec.ofNat 8 x })) ∧
    (∀ va x, reads → s.headboxRead c (q.entryAt q.rptr.toNat) 64 = .error (va, x) →
      (x ≠ .nowhere → exec (.packetRead part slot n) s = .next (s.queueMiss c n va x)) ∧
      (x = .nowhere → exec (.packetRead part slot n) s = .fault .noSuchPhysicalAddress)) ∧
    (q.en = false → exec (.dependencePoll part slot n) s = .next s) ∧
    (∀ p : Packet, q.blocked = some p → p.dep ≠ 0 → q.future = none → c.serves = true → q.en = true →
      (∀ key, s.headboxFinds c p.dep = .ok key ∨ s.headboxFinds c p.dep = .stalled key → exec (.dependencePoll part slot n) s = .next s) ∧
      (∀ mig, s.headboxFinds c p.dep = .waits mig → exec (.dependencePoll part slot n) s = .next (s.queueMiss c n p.dep (.waits mig))) ∧
      (∀ cause, s.headboxFinds c p.dep = .prot cause → exec (.dependencePoll part slot n) s = put (q.stopAt 7))) ∧
    (∀ prio m, s.nextPacket part = some (prio, m) →
      let start := (s.parts.getD part Part.reset).qpointer.getD prio 0 + 1
      let turn := fun (k : Nat) => (k + 4096 - start % 4096) % 4096
      (prio, m) ∈ s.readyPackets part ∧
        ∀ x ∈ s.readyPackets part, x.1 < 4 → prio < x.1 ∨ (prio = x.1 ∧ turn m ≤ turn x.2)) ∧
    (∀ d r p, s.taken part slot n 0 = some (d, r, p) → exec (.packetBarrier part slot n) s = .next (s.takePacket d r p { r with blocked := none })) ∧
    (∀ d r p, s.taken part slot n 3 = some (d, r, p) →
      exec (.signal part slot n) s = .next ((s.takePacket d r p r.opened).performAdd part slot (.packet r.n r.index) p.done p.dadd)) ∧
    (let clean := fun (t : State) (p : Packet) =>
       ∀ x ∈ t.tlb, x.part = part → x.slot = slot → ¬ (x.base < p.va + p.len ∧ p.va < x.base + x.size)
     (∀ d r p, s.taken part slot n 4 = some (d, r, p) →
       (s.notifies part 0 1 = false → exec (.shootdown part slot n) s = .next s) ∧
       (s.notifies part 0 1 = true →
         ∃ t d', exec (.shootdown part slot n) s = .next t ∧ clean t p ∧ t.ctx? part slot = some d' ∧
           (d'.queueOr n).shooting = some (r.index, p) ∧ (d'.queueOr n).blocked = none ∧
           ∀ e ∈ t.sbuf, e.from_.part = part → e.from_.ctx = slot →
             ¬ (e.from_.va < p.va + p.len ∧ p.va < e.from_.va + e.data.length) ∨ e.due = true)) ∧
     (∀ idx (p : Packet), q.shooting = some (idx, p) →
       (s.shooting part slot p = true ∨ s.notifies part 1 0 = false → exec (.shootdownComplete part slot n) s = .next s) ∧
       (s.shooting part slot p = false → s.notifies part 1 0 = true →
         ∃ u : State, clean u p ∧ u.ctxs = s.ctxs ∧ u.mem = s.mem ∧ u.warps = s.warps ∧
           exec (.shootdownComplete part slot n) s =
             .next ((u.setCtx (c.putQueue { q with shooting := none })).performAdd part slot (.packet q.n idx) p.done p.dadd))))

/-- R417, R420 to R424, R428 to R430, R30, R492: kernels and grids. A commit copies the fields into force when the context holds kernels,
the words are well formed and the descriptor keeps to its limits, waits while the headbox cannot reach it, and else sets FAIL; a withdrawal
copies them with V = 0. A launch admits a grid with its arguments and number, and its first group, unless a format entry that it asks for
is still to be installed; a closing grid with its work performed adds DADD and is gone.
The model's own choices: that a queue's Blocked packet is dropped when EN is set again is log entry 61, that LAUNCH makes the checks of a
packet again is log entry 45, when the driver reaches a register is log entry 108, and the rest are log entries 29, 44 and 84. -/
def Obligations.KernelAndGridEvents : Prop :=
  ∀ (s : State) (part slot n kid : Nat) (cfg v : Word), part < 6 → kid < 4096 → n < 64 → s.driverReaches = true →
    let k := s.kernelOr part kid
    let at_ := cfg.toNat / 2 ^ 16 % 64
    let formed := cfg.toNat / 2 ^ 22 % 128 = 0 ∧ cfg.toNat / 4 % 64 = 0 ∧ cfg.toNat % 4 ≠ 3 ∧ k.wGen.toNat / 2 ^ 16 = 0
    let refused := Host.Outcome.next (s.putKernel { k with fail := true, commit := none })
    let force := fun (u : State) (valid : Bool) (kd : KernelDesc) => Host.Outcome.next (u.putKernel
      { k with desc := k.wDesc, code := k.wCode, itab := k.wItab, gen := k.wGen.setWidth 16, valid := valid, fail := false, slot := at_
               step := BitVec.ofNat 8 (cfg.toNat / 2 ^ 8 % 256), mode := modeOfNat (cfg.toNat % 4), kd := kd, commit := none })
    let counted := Host.Outcome.next { s with counters := { s.counters with queues := satInc s.counters.queues } }
    (¬ formed ∨ s.ctx? part at_ = none → exec (.kernelCommit part kid cfg) s = refused) ∧
    (∀ c, s.ctx? part at_ = some c → c.state.holds = false ∨ s.readDescriptor c k.wDesc.toNat = .error false →
      exec (.kernelCommit part kid cfg) s = refused) ∧
    (∀ c, formed → s.ctx? part at_ = some c → c.state.holds = true →
      (∀ kd u, s.readDescriptor c k.wDesc.toNat = .ok (kd, u) → exec (.kernelCommit part kid cfg) s = force u true kd) ∧
      (s.readDescriptor c k.wDesc.toNat = .error true →
        exec (.kernelCommit part kid cfg) s = .next (s.putKernel { k with commit := some cfg }))) ∧
    (¬ formed → exec (.kernelWithdraw part kid cfg) s = refused) ∧ (formed → exec (.kernelWithdraw part kid cfg) s = force s false k.kd) ∧
    (∀ c, s.ctx? part slot = some c →
      let q := c.queueOr n
      let fine := cfg.toNat / 2 ^ 18 % 2 ^ 11 = 0 ∧ cfg.toNat / 2 ^ 5 % 2 ^ 11 = 0 ∧ 4 ≤ cfg.toNat % 32 ∧ cfg.toNat % 32 ≤ 16
      (∀ i ∈ [Instr.queueEnable part slot n cfg, .queueDisable part slot n cfg],
        (¬ fine ∨ (q.en = true ∧ cfg.getLsbD 31 = true) → exec i s = counted) ∧
        (fine → cfg.getLsbD 31 = false → exec i s = .next (s.setCtx (c.putQueue { q with cfg := cfg }))) ∧
        (fine → q.en = false → cfg.getLsbD 31 = true →
          exec i s = .next (s.setCtx (c.putQueue { q with cfg := cfg, stop := false, cause := 0, rptr := q.wptr, blocked := none, future := none })))) ∧
      (q.dev = true ∨ q.entries < (v - q.rptr).toNat → exec (.wptr part slot n v) s = counted) ∧
      (q.dev = false → (v - q.rptr).toNat ≤ q.entries → exec (.wptr part slot n v) s = .next (s.setCtx (c.putQueue { q with wptr := v }))) ∧
      (∀ r key, c.heldFaults = [r] → r.behind = none → c.heldRequests = [] → c.adds = [] → c.fqsize ≠ 0 → c.fqhead - c.fqtail ≠ c.fqsize → c.fqsig = 0 →
        s.headboxKey c .write (c.fqbase.toNat + 64 * (c.fqhead.toNat % c.fqsize.toNat)) = some key →
        ∃ t c', exec (.heldRecordRetry part slot) s = .next t ∧ t.mem = memWrites s.mem key (Record.bytes r) ∧
          t.ctx? part slot = some c' ∧ c'.heldFaults = [] ∧ c'.fqhead = c.fqhead + 1)) ∧
    (s.barred = true → exec (.launch part slot n) s = .next s) ∧
    (∀ c q p, s.taken part slot n 1 = some (c, q, p) →
      (∀ x, s.barred = false → s.packetCause c q p = some x → exec (.launch part slot n) s = .next (s.setCtx (c.putQueue (q.stopAt x)))) ∧
      (∀ args u, s.barred = false → s.packetCause c q p = none →
        s.headboxRead c p.args (s.kernelOr part p.kid).kd.args = .ok (args, u) → (∀ g ∈ s.grids, g.uid < s.fresh) →
        let g := newGrid u c q p (s.kernelOr part p.kid) args
        0 < g.x * g.y * g.z →
        let asks := fun (i : Nat) => i < 10 ∧ g.kd.fmtm.getLsbD (6 + i) = true
        ∃ t c' g', exec (.launch part slot n) s = .next t ∧ g' ∈ t.grids ∧ g' = { g with next := g'.next, installing := g'.installing } ∧
          t.ctx? part slot = some c' ∧ c'.gridn = c.gridn + 1 ∧ c'.state = .active ∧
          ((∀ i, asks i → c.fmt.getD i 0 = g.kd.fmtw.getD i 0) → c.updating = [] → g'.installing = []) ∧
          ((∃ i, asks i ∧ c.fmt.getD i 0 ≠ g.kd.fmtw.getD i 0) → c.updating = [] → g'.installing ≠ []) ∧
          (g'.installing ≠ [] → g'.next = 0 ∧ t.groups = s.groups) ∧
          (g'.installing = [] → g'.next = 1 ∧
            ∃ h ∈ t.groups, h.grid = g.uid ∧ h.state = .pending ∧ h.gx = 0 ∧ h.gy = 0 ∧ h.gz = 0))) ∧
    (∀ uid g c, s.grid? uid = some g → s.ctx? g.part g.ctx = some c →
      (g.state ≠ .closing ∨ s.gridBusy g = true → exec (.gridComplete uid) s = .next s) ∧
      (g.state = .closing → s.gridBusy g = false → (∀ a ∈ c.adds, a.what ≠ .grid uid) →
        exec (.gridComplete uid) s =
          .next (s.performAdd g.part g.ctx (.grid uid) g.done.toNat g.dadd.toNat)) ∧
      (g.state = .closing → s.gridBusy g = false → (∀ a ∈ c.adds, a.what ≠ .grid uid) → g.done = 0 →
        ∃ t, exec (.gridComplete uid) s = .next t ∧ t.grid? uid = none))

/-! ### What the driver does -/

/-- R389, R390, R396, R441: context commands. The oldest command of a partition begins when it is written with none before it. CREATE makes
a context at the values of R395; SAVE stops admissions and asks for every resident group; RESUME reads the block back; DESTROY abandons
the grids. A SAVE ends when nothing of the context is on a core, and a DESTROY when nothing it issued is under way. A RESUME whose block the
access tables refuse, that lies outside device memory or that has a bit which must be zero is refused, and one whose block is out of reach
stays in progress.

R390, R396: the ends of SAVE and DESTROY.
The model's own choices that it rests on: log entries 18, 52, 83, 84, 108, 114. -/
def Obligations.ContextCommands : Prop :=
  (∀ (s : State) (part slot : Nat) (arg : Word), part < 6 → slot < 64 → (s.part part).cmds = [] → s.driverReaches = true →
     let st := (s.ctx? part slot).map Ctx.state
     let status := fun (t : State) (op : BitVec 8) (x : BitVec 2) => (t.part part).lastOp = op ∧ (t.part part).lastStat = x
     (s.started = true → st = none →
       ∃ t c, exec (.create part slot arg) s = .next t ∧ t.ctx? part slot = some c ∧ status t 1 1 ∧ c.state = .created ∧ c.ctxid = arg ∧
         c.cfg = 0 ∧ c.srseed = 0 ∧ c.evth = 20 ∧ c.pdl = 2000 ∧ c.rwth = 5 ∧ c.ptroot = 0 ∧ c.savebase = 0 ∧ c.savesize = 0 ∧
         c.fqbase = 0 ∧ c.fqsize = 0 ∧ c.fqhead = 0 ∧ c.fqtail = 0 ∧ c.fqsig = 0 ∧ c.prqbase = 0 ∧ c.prqsize = 0 ∧ c.prqhead = 0 ∧
         c.prqtail = 0) ∧
     (s.started = false ∨ st.isSome = true → ∃ t, exec (.create part slot arg) s = .next t ∧ status t 1 2 ∧ t.ctxs = s.ctxs) ∧
     (st ≠ some .active → ∃ t, exec (.save part slot) s = .next t ∧ status t 2 2 ∧ t.ctxs = s.ctxs) ∧
     (st = some .active → ∃ t c, exec (.save part slot) s = .next t ∧ status t 2 0 ∧ t.ctx? part slot = some c ∧ c.saving = true) ∧
     (st ≠ some .suspended → ∃ t, exec (.resume part slot) s = .next t ∧ status t 3 2 ∧ t.ctxs = s.ctxs) ∧
     (∀ c, s.ctx? part slot = some c → c.state = .suspended →
       (0x6000000000 < c.savebase.toNat + 0x1000 ∨ s.rangeAllows c.headbox c.savebase.toNat 0x1000 false = false) →
       ∃ t, exec (.resume part slot) s = .next t ∧ status t 3 2 ∧ t.ctxs = s.ctxs) ∧
     (∀ c, s.ctx? part slot = some c → c.state = .suspended → c.savebase.toNat + 0x1000 ≤ 0x6000000000 →
       s.rangeAllows c.headbox c.savebase.toNat 0x1000 false = true → s.saveAccess c 0 0 0x1000 false = none →
       ∃ t, exec (.resume part slot) s = .next t ∧ status t 3 0 ∧ t.ctxs = s.ctxs ∧ ((t.part part).cmds.length = 1)) ∧
     (∀ c, s.ctx? part slot = some c → c.state = .suspended → c.savebase.toNat + 0x1000 ≤ 0x6000000000 →
       s.saveAccess c 0 0 0x1000 false ≠ none → c.badImage (memSlice s.mem c.savebase.toNat 0x1000) = true →
       ∃ t, exec (.resume part slot) s = .next t ∧ status t 3 2 ∧ t.ctxs = s.ctxs) ∧
     (∀ c, s.ctx? part slot = some c → c.state = .suspended → c.savebase.toNat + 0x1000 ≤ 0x6000000000 →
       s.saveAccess c 0 0 0x1000 false ≠ none → c.badImage (memSlice s.mem c.savebase.toNat 0x1000) = false →
       let m := memSlice s.mem c.savebase.toNat 0x1000
       ∃ t c', exec (.resume part slot) s = .next t ∧ status t 3 1 ∧ t.ctx? part slot = some c' ∧ c'.state = .active ∧
         c'.fqhead = BitVec.ofNat 32 (memNat m 0x4C 4) ∧ c'.prqhead = BitVec.ofNat 32 (memNat m 0x6C 4) ∧
         c'.seq = BitVec.ofNat 24 (memNat m 0xF0 4) ∧ c'.gridn = BitVec.ofNat 32 (memNat m 0xF4 4) ∧ c'.savebase = c.savebase) ∧
     (st = none → ∃ t, exec (.destroy part slot) s = .next t ∧ status t 4 2 ∧ t.ctxs = s.ctxs) ∧
     (st.isSome = true → ∃ t c, exec (.destroy part slot) s = .next t ∧ status t 4 0 ∧ t.ctx? part slot = some c ∧ c.state = .destroying ∧
       c.live = [] ∧ ∀ g ∈ t.grids, g.part = part → g.ctx = slot → g.state = .abandoned)) ∧
  (∀ (s : State) (part slot : Nat) (c : Ctx), part < 6 → s.ctx? part slot = some c →
     (c.saving = false → exec (.saveComplete part slot) s = .next s) ∧
     (∀ x, (s.part part).cmds = [x] → cmdOp x = 2 → cmdSlot x = slot → c.saving = true → c.state = .active → s.quiet c = true →
       c.updating = [] → 9 ≤ c.savesize.toNat → c.savebase.toNat + 0x1000 ≤ 0x6000000000 →
       (s.writeSave c 0 0 0x1000 c.image = none → exec (.saveComplete part slot) s = .next s) ∧
       (s.writeSave c 0 0 0x1000 c.image ≠ none → ∃ t c', exec (.saveComplete part slot) s = .next t ∧ t.ctx? part slot = some c' ∧ c'.state = .suspended ∧
         (t.part part).lastStat = 1 ∧ (t.part part).cmds = [] ∧ t.mem = memSplice s.mem c.savebase.toNat 0x1000 c.image)) ∧
     (c.state ≠ .destroying → exec (.destroyComplete part slot) s = .next s) ∧
     (∀ x, (s.part part).cmds = [x] → cmdOp x = 4 → cmdSlot x = slot → c.state = .destroying → s.quiet c = true → s.remotes = [] →
       (∀ f ∈ s.flows, ∀ m ∈ f.held, m.from_.part = part → m.from_.ctx = slot → m.performed = true) →
       let u := (s.discardUnsent part slot).clearDirectory c
       (∀ d, u.ctx? part slot = some d → d.placed ≠ [] → exec (.destroyComplete part slot) s = .next u) ∧
       ((∀ d, u.ctx? part slot = some d → d.placed = []) → ∃ t, exec (.destroyComplete part slot) s = .next t ∧ t.ctx? part slot = none ∧ (t.part part).lastStat = 1 ∧
         (∀ g ∈ t.grids, g.part = part → g.ctx ≠ slot) ∧ ∀ x ∈ t.tlb, x.part = part → x.slot ≠ slot)))

/-- R343, R391, R392, R405, R439, R448, R455, R457, R460: the driver's other writes. A device whose start verified no image, or whose link
13 carries nothing, takes none of them, and a word with a bit that must be zero, or an undefined code, is rejected.
The model's own choices: that a write of MBCFG, PEER or START with a bit that must be zero leaves the register and every counter as they are
is log entry 32, where R343, R439 and R455 name no rejection; that link 13 has to carry the driver's writes is log entry 108; which partitions
a write of PARTQ concerns is log entry 43; and the rest are log entries 36 and 52. -/
def Obligations.DriverWrites : Prop :=
  ∀ (s : State) (part m target entry : Nat) (v : Word) (x : Dword) (y : BitVec 128) (idle : Bool),
    let counted := Host.Outcome.next { s with counters := { s.counters with samplers := satInc s.counters.samplers } }
    (s.driverReaches = true →
      (s.started = true → exec (.start v) s = counted) ∧
      (s.started = false → v = 1 → exec (.start v) s = .next { s with started := true, flatch := s.foffer &&& s.fenable }) ∧
      (s.started = false → v ≠ 1 → exec (.start v) s = .next s)) ∧
    (s.firmware.verified = false ∨ s.linkUp 13 = false →
      ∀ i ∈ [Instr.start v, .partqWrite x, .mbcfgWrite m v, .accessTableWrite target entry y, .smpcfg part v, .registerWrite 0 8 8 x,
          .samplerCounterClear part idle v, .debugKill part x, .kernelCommit part m v, .kernelWithdraw part m v, .create part m v, .save part m,
          .resume part m, .destroy part m, .queueEnable part m entry v, .queueDisable part m entry v, .wptr part m entry v,
          .preemptionWithdraw m, .getMeasurements],
        exec i s = .next s) ∧
    (s.driverReaches = true → let refused : Prop := s.started = false ∨ x.toNat / 2 ^ 48 ≠ 0 ∨ (∃ n, n < 6 ∧ x.toNat / 2 ^ (8 * n + 6) % 4 ≠ 0) ∨
        (∃ a b, a < b ∧ b < 6 ∧ partMask x a &&& partMask x b ≠ 0) ∨
        (∃ c ∈ s.ctxs, c.part < 6 ∧ (s.part c.part).mask ≠ partMask x c.part);
      (refused → exec (.partqWrite x) s = .next { s with partst := 2 }) ∧
      (¬ refused → ∃ t, exec (.partqWrite x) s = .next t ∧ t.partst = 1 ∧ t.ctxs = s.ctxs ∧ ∀ n, n < 6 → (t.part n).mask = partMask x n)) ∧
    (m < 256 → s.driverReaches = true →
      let bad := v.toNat / 2 ^ 12 % 128 ≠ 0 ∨ 6 ≤ v.toNat / 2 ^ 19 % 8
      let b : Mailbox := { m := m, cfg := v, msgs := ((s.mbox? m).map Mailbox.msgs).getD [] }
      (bad → exec (.mbcfgWrite m v) s = .next s) ∧
      (¬ bad → v.getLsbD 31 = true → exec (.mbcfgWrite m v) s = .next (s.setMbox b)) ∧
      (¬ bad → v.getLsbD 31 = false → ∃ t, exec (.mbcfgWrite m v) s = .next t ∧ t.mboxes = (s.setMbox { b with msgs := [] }).mboxes ∧
        t.counters.messages = b.msgs.foldl (fun n _ => satInc n) s.counters.messages)) ∧
    (target < 85 → entry < 32 → s.driverReaches = true →
      ∃ t, exec (.accessTableWrite target entry y) s = .next t ∧ { target := target, entry := entry, word := y } ∈ t.acc ∧ t.mem = s.mem) ∧
    (part < 6 → s.driverReaches = true →
      ((v.toNat / 2 ^ 20 % 2 ^ 11 ≠ 0 → exec (.smpcfg part v) s = counted) ∧
       (v.toNat / 2 ^ 20 % 2 ^ 11 = 0 → (s.part part).smpcfg.getLsbD 31 = false →
         exec (.smpcfg part v) s = .next (s.setPart part { s.part part with smpcfg := v, smpnext := none })) ∧
       (v.toNat / 2 ^ 20 % 2 ^ 11 = 0 → (s.part part).smpcfg.getLsbD 31 = true →
         exec (.smpcfg part v) s = .next (s.setPart part { s.part part with smpnext := some v }))) ∧
      (v ≠ 0 → exec (.samplerCounterClear part idle v) s = .next s) ∧
      exec (.samplerCounterClear part true 0) s = .next (s.setPart part { s.part part with sidle := 0 }) ∧
      exec (.samplerCounterClear part false 0) s = .next (s.setPart part { s.part part with sdrop := 0 }) ∧
      (x.toNat / 2 ^ 32 ≠ 0 ∨ s.ctx? part (x.toNat % 64) = none →
        ∃ t, exec (.debugKill part x) s = .next t ∧ (t.part part).dbgst = 2 ∧ t.warps = s.warps ∧ t.groups = s.groups) ∧
      (∀ c g w, x.toNat = w.index * 2 ^ 24 + roleNat w.role * 2 ^ 22 + 2 ^ 8 + c.slot → c.slot < 64 → w.index < 256 →
        s.ctx? part c.slot = some c → c.state = .active → s.debugTarget part c.slot = some (.group g.uid) → s.group? g.uid = some g →
        g.part = part → g.ctx = c.slot → g.kills = [] → g.state = .running ∨ g.state = .waiting ∨ g.state = .placed →
        let k : Kill := { role := w.role, index := w.index, debug := true, upto := none }
        s.warpOfKill g.uid k = some w → s.warp? w.uid = some w →
        let held := (s.setPart part { s.part part with dbgst := 0 }).setGroup { g with kills := [k] }
        ((∃ f ∈ w.frags, f.acts = true) → exec (.debugKill part x) s = .next held) ∧
        ((∀ f ∈ w.frags, f.acts = false) →
          (∀ u y, held.release w.core g.scope (s.storeNumber w.core) = .error (.wait u y) →
            ∃ t, exec (.debugKill part x) s = .next t ∧ (t.part part).dbgst = 0 ∧ t.warps = s.warps) ∧
          (∀ u, held.release w.core g.scope (s.storeNumber w.core) = .ok u →
            ∃ t, exec (.debugKill part x) s = .next t ∧ (t.part part).dbgst = 1 ∧ ∀ u ∈ t.warps, u.uid ≠ w.uid)))) ∧
    (s.driverReaches = true →
      exec (.registerWrite 0 0x8 8 x) s = .next (if s.started then { s with counters := { s.counters with samplers := satInc s.counters.samplers } }
        else { s with fenable := x }) ∧
      (part < 6 → exec (.registerWrite 2 (part * 0x1000000 + 0x118) 4 x) s =
        .next (s.setPart part { s.part part with stail := x.setWidth 32 })) ∧
      (part < 6 → exec (.registerWrite 2 (part * 0x1000000) 8 x) s = .next (s.writeCmd part x)) ∧
      (∀ n, n < 1024 →
        (x.toNat / 2 ^ 12 % 8 ≠ 0 → exec (.registerWrite 0 (0x2000 + 2 * n) 2 x) s = .next s) ∧
        (x.toNat / 2 ^ 12 % 8 = 0 →
          ∃ t, exec (.registerWrite 0 (0x2000 + 2 * n) 2 x) s = .next t ∧ t.peer n = x.setWidth 16 ∧ ∀ k, k ≠ n → t.peer k = s.peer k)) ∧
      exec (.registerWrite 0 0 8 x) s = .next s ∧ exec (.registerWrite 0 0x9 4 x) s = .next s)

/-! ### Observation, errors, firmware -/

/-- R448, R449, R453, R459: a sampler writes the next fragment of its cycle, or counts it dropped or idle; a sensor reading sets the quire's
weight and lowers its clock, or every clock, by one step; a clock rises a step after 1 ms below the limits; a critical quire at 8/16 is
held out of placement. A record waits while its core cannot reach the ring, behind the earlier ones.
The model's own choices: how a sample crosses link 0 and waits for it is log entry 84, and the rest is log entry 51. -/
def Obligations.SamplesAndSensors : Prop :=
  ∀ (s : State) (core q : Nat) (r : SensorReading),
    (s.partOfCore core = none → exec (.sampleTick core) s = .next s) ∧
    (∀ p, s.partOfCore core = some p → (s.part p).smpnext = none → s.sampleDue core (s.part p).smpcfg = true →
      let P := s.part p
      (s.samplesOf core = [] → ∃ t, exec (.sampleTick core) s = .next t ∧ t.mem = s.mem ∧ (t.part p).sidle = satInc P.sidle) ∧
      (s.samplesOf core ≠ [] → P.shead + BitVec.ofNat 32 P.samples.length - P.stail = P.smpsize →
        ∃ t, exec (.sampleTick core) s = .next t ∧ t.mem = s.mem ∧ (t.part p).sdrop = satInc P.sdrop ∧ (t.part p).shead = P.shead) ∧
      (∀ x rest, s.samplesOf core = x :: rest → s.lastSample core = none →
        P.shead + BitVec.ofNat 32 P.samples.length - P.stail ≠ P.smpsize → x.place < 1024 → (∀ y ∈ rest, y.place < 1024) →
        let slotAt := fun (n : Nat) => P.smpbase.toNat + 32 * ((P.shead + BitVec.ofNat 32 n).toNat % P.smpsize.toNat)
        let record := bytesLE 8 x.pc.toNat ++ bytesLE 8 (s.clock core) ++ bytesLE 4 x.who.toNat ++ bytesLE 4 (x.mark.toNat * 65536 + x.reason) ++
              bytesLE 4 (((s.ctx? x.part x.slot).map Ctx.ctxid).getD 0).toNat ++ bytesLE 4 x.kid
        slotAt P.samples.length + 32 ≤ 0x6000000000 →
        (∃ u : State, exec (.sampleTick core) s = .next (u.writeSamples p) ∧ u.mem = s.mem ∧
          u.part p = { P with samples := P.samples ++ [(core, record)] }) ∧
        (P.samples = [] → s.hostHeld = [] → s.exchanges (dieOf core) 1 (slotAt 0) = true →
          ∃ t, exec (.sampleTick core) s = .next t ∧ (t.part p).shead = P.shead + 1 ∧ (t.part p).samples = [] ∧
            t.mem = memWrites s.mem (slotAt 0) record) ∧
        (P.samples = [] → s.exchanges (dieOf core) 1 (slotAt 0) = false →
          ∃ t, exec (.sampleTick core) s = .next t ∧ (t.part p).shead = P.shead ∧ t.mem = s.mem ∧ (t.part p).samples = [(core, record)]))) ∧
    (s.firmware.verified = false → exec (.sensorRead r) s = .next s) ∧
    (r.quire < 6 → s.firmware.verified = true → r.critical = false →
      let lower := fun (n : Nat) => max 8 (s.clkStep.getD n 16 - 1)
      ∃ t, exec (.sensorRead r) s = .next t ∧ t.weights.getD r.quire 0 = r.weight ∧ t.readings[r.quire]? = some r ∧ t.ctxs = s.ctxs ∧
        (r.overCap = true → ∀ n, n < 6 → t.clkStep.getD n 16 = lower n) ∧
        (r.overCap = false → r.overTemp = true ∨ r.overDroop = true →
          t.clkStep.getD r.quire 16 = lower r.quire ∧ ∀ n, n ≠ r.quire → t.clkStep.getD n 16 = s.clkStep.getD n 16) ∧
        (r.overCap = false → r.overTemp = false → r.overDroop = false → t.clkStep = s.clkStep)) ∧
    (∀ p, r.quire < 6 → s.firmware.verified = true → r.critical = true → s.clkStep.getD r.quire 16 = 8 → s.partOfCore (8 * r.quire) = some p →
      ∃ u : State, u.ctxs = s.ctxs ∧ u.heldOut.getLsbD r.quire = true ∧
        exec (.sensorRead r) s =
          .next ((s.ctxs.filter (fun c => c.part == p)).foldl (fun t c => t.machineCheck c.part c.slot (2 ^ 64 - 1)) u)) ∧
    (s.mayRaise q = true → ∃ t, exec (.clockRaise q) s = .next t ∧ t.clkStep.getD q 0 = s.clkStep.getD q 16 + 1 ∧ t.clkStep.getD q 0 ≤ 16) ∧
    (s.mayRaise q = false → exec (.clockRaise q) s = .next s)

/-- R25, R27, R28, R30, R31, R326, R454, R457, R458: storage errors count; one in data held elsewhere discards it; an uncorrectable one ends
its owner and the context whose access met it, with a record of the fragment whose instruction consumed it, and of the recipe slot whose
replay did; the copy, engine operation or mailbox message that consumed it is gone, and nothing it would have written or credited comes of
it; in state that belongs to no context every context ends, and launches are barred. Staging changes nothing that runs, the fused version never goes below the running image's, and a reset
keeps only the host's and the peers' memories, the firmware's slots and what was sent.
The model's own choices that it rests on: log entries 37, 52, 108. -/
def Obligations.ErrorsAndFirmware : Prop :=
  ∀ (s : State) (die cls pa part slot v : Nat) (acc : Nat × Nat) (image : FirmwareImage),
    let done := fun (i : Instr) (t : State) => exec i s = .next t
    let bad := s.countError die cls .uncorrectable
    done (.eccCorrectable die cls) (s.countError die cls .corrected) ∧
    done (.eccUncorrectable die cls (.cleanCopy none)) (s.countError die cls .corrected) ∧
    (∃ t, done (.eccUncorrectable die cls (.cleanCopy (some (part, slot, v)))) t ∧
      (∀ x ∈ t.tlb, x.part = part → x.slot = slot → ¬ (x.base ≤ v ∧ v < x.base + x.size)) ∧
      t = { s.countError die cls .corrected with tlb := t.tlb }) ∧
    done (.eccUncorrectable die cls .unowned) bad ∧
    (∀ c, s.copy? c.uid = some c →
      ∃ t : State, done (.eccUncorrectable die cls (.copy c.uid pa)) (t.machineCheck c.part c.ctx (pa / 128 * 128)) ∧ t.copy? c.uid = none ∧
        t.mem = s.mem ∧ t.ctxs = s.ctxs ∧ t.groups = s.groups ∧ t.warps = s.warps ∧
        ∀ f ∈ t.flows, ∀ m ∈ f.held, m.ofCopy c.uid = true → m.performed = true) ∧
    (∀ o g, s.engines.find? (fun x => x.uid == o.uid) = some o → s.group? o.group = some g →
      ∃ t : State, done (.eccUncorrectable die cls (.tileOp o.uid pa)) (t.machineCheck g.part g.ctx (pa / 128 * 128)) ∧
        (∀ x ∈ t.engines, x.uid ≠ o.uid) ∧ t.mem = s.mem ∧ t.ctxs = s.ctxs ∧ t.groups = s.groups ∧ t.warps = s.warps) ∧
    (∀ b m place, s.mbox? b.m = some b → b.msgs[place]? = some m →
      done (.eccUncorrectable die cls (.message b.m place pa))
        ((bad.setMbox { b with msgs := b.msgs.eraseIdx place }).machineCheck m.part m.ctx (pa / 128 * 128))) ∧
    (∀ o, s.frameOwner pa = some o →
      done (.eccUncorrectable die cls (.memory pa none none)) (bad.machineCheck o.1 o.2 (pa / 128 * 128)) ∧
      done (.eccUncorrectable die cls (.memory pa (some acc) none))
        (((bad.stopConsumers (pa / 128) acc).machineCheck acc.1 acc.2 (pa / 128 * 128)).machineCheck o.1 o.2 (pa / 128 * 128))) ∧
    (s.frameOwner pa = none → done (.eccUncorrectable die cls (.memory pa none none)) bad ∧
      done (.eccUncorrectable die cls (.memory pa (some acc) none))
        ((bad.stopConsumers (pa / 128) acc).machineCheck acc.1 acc.2 (pa / 128 * 128))) ∧
    (∀ c, c ∈ (bad.stopConsumers (pa / 128) acc).copies →
      c ∈ s.copies ∧ c.consumes acc.1 acc.2 (pa / 128) = false) ∧
    (∀ w f g c, s.warp? w.uid = some w → w.frag? f.id = some f → s.group? w.group = some g → s.ctxOf g = some c →
      c.state ≠ .faulted → c.state ≠ .destroying → f.parked = false → f.wait ≠ .held → s.frameOwner pa = none →
      ∀ inner, done (.eccUncorrectable die cls (.memory pa none (some { warp := w.uid, frag := f.id, slot := inner })))
        ({ bad.failContext c with remotes := s.remotes.filter (fun r => r.frag != ({ warp := w.uid, frag := f.id } : FragRef)) }.raise { warp := w.uid, frag := f.id }
          { code := .mchk, addr := BitVec.ofNat 64 (pa / 128 * 128), rpl := inner })) ∧
    (∀ g, s.group? g.uid = some g → done (.eccUncorrectable die cls (.vat g.uid none)) (bad.machineCheck g.part g.ctx 0)) ∧
    (s.ctxs.Pairwise (fun a b => a.key ≠ b.key) →
      ∃ t, done (.eccUncorrectable die cls .global) t ∧ t.barred = true ∧
        ∀ c ∈ t.ctxs, c.state = .faulted ∨ c.state = .destroying) ∧
    done (.patrolScrub die .nothing) s ∧
    (s.firmware.verified = true → done (.patrolScrub die (.correctable cls)) (s.countError die cls .scrubbed)) ∧
    (s.firmware.verified = false → ∀ found, done (.patrolScrub die found) s) ∧
    (∀ o, s.firmware.verified = true → s.frameOwner pa = some o →
      done (.patrolScrub die (.uncorrectable cls pa)) (bad.machineCheck o.1 o.2 (pa / 128 * 128))) ∧
    (∀ c, s.ctx? part slot = some c → c.part = part → c.slot = slot → c.state ≠ .faulted → c.state ≠ .destroying →
      ∃ c', (s.machineCheck part slot pa).ctx? part slot = some c' ∧ c'.state = .faulted ∧ (c.fqsig = 0 → c'.seq = c.seq + 1)) ∧
    (∀ c, s.ctx? part slot = some c → c.state = .faulted → s.machineCheck part slot pa = s) ∧
    (∀ t, t = exec (.firmwareStage image) s →
      ∃ f, t = .next { s with firmware := f } ∧ f.running = s.firmware.running ∧ f.measured = s.firmware.measured ∧
        f.verified = s.firmware.verified ∧ f.other = some (some image) ∧ f.staged = true) ∧
    (s.firmware.verified = true → (imageOf s.firmware.running).security ≤ v → s.firmware.security < v →
      done (.securityVersionRaise v) { s with firmware := { s.firmware with security := v } }) ∧
    (v < (imageOf s.firmware.running).security → done (.securityVersionRaise v) s) ∧
    (s.driverReaches = true → done .getMeasurements { s with reported := s.reported ++ [s.firmware.measurement] }) ∧
    (s.driverReaches = false → done .getMeasurements s) ∧
    (∃ t, done .reset t ∧ (∀ a, a < 0x6000000000 → memRead t.mem a = 0) ∧ (∀ a, 2 ^ 52 ≤ a → memRead t.mem a = memRead s.mem a) ∧
      t.ctxs = [] ∧ t.groups = [] ∧ t.warps = [] ∧ t.kernels = [] ∧ t.barred = false ∧ t.started = false ∧
      t.firmware.security = s.firmware.security ∧
      (s.firmware.staged = true → image.verifies = true → s.firmware.security ≤ image.security →
        s.firmware.other = some (some image) → t.firmware.running = some image ∧ t.firmware.verified = true ∧ t.foffer = 0x1F))

end
end

