-- ==== Sys2Proof/Laws/State.lean ====
section
/-! SUPPORT. What each plain update of the state, of a warp and of a fragment leaves as it was: one lemma per field, so
that no later proof unfolds an update. -/

namespace Sys2Proof.Machine

/-! `State.setWarp` -/

@[simp] theorem State.setWarp_agenda (s : State) (w : Warp) : (s.setWarp w).agenda = s.agenda := rfl
@[simp] theorem State.setWarp_cur (s : State) (w : Warp) : (s.setWarp w).cur = s.cur := rfl
@[simp] theorem State.setWarp_draws (s : State) (w : Warp) : (s.setWarp w).draws = s.draws := rfl
@[simp] theorem State.setWarp_prefer (s : State) (w : Warp) : (s.setWarp w).prefer = s.prefer := rfl
@[simp] theorem State.setWarp_fresh (s : State) (w : Warp) : (s.setWarp w).fresh = s.fresh := rfl
@[simp] theorem State.setWarp_ticks (s : State) (w : Warp) : (s.setWarp w).ticks = s.ticks := rfl
@[simp] theorem State.setWarp_quireClk (s : State) (w : Warp) : (s.setWarp w).quireClk = s.quireClk := rfl
@[simp] theorem State.setWarp_clkStep (s : State) (w : Warp) : (s.setWarp w).clkStep = s.clkStep := rfl
@[simp] theorem State.setWarp_calm (s : State) (w : Warp) : (s.setWarp w).calm = s.calm := rfl
@[simp] theorem State.setWarp_readings (s : State) (w : Warp) : (s.setWarp w).readings = s.readings := rfl
@[simp] theorem State.setWarp_stepTime (s : State) (w : Warp) : (s.setWarp w).stepTime = s.stepTime := rfl
@[simp] theorem State.setWarp_powerCap (s : State) (w : Warp) : (s.setWarp w).powerCap = s.powerCap := rfl
@[simp] theorem State.setWarp_portBusy (s : State) (w : Warp) : (s.setWarp w).portBusy = s.portBusy := rfl
@[simp] theorem State.setWarp_mem (s : State) (w : Warp) : (s.setWarp w).mem = s.mem := rfl
@[simp] theorem State.setWarp_sbuf (s : State) (w : Warp) : (s.setWarp w).sbuf = s.sbuf := rfl
@[simp] theorem State.setWarp_sbufSeq (s : State) (w : Warp) : (s.setWarp w).sbufSeq = s.sbufSeq := rfl
@[simp] theorem State.setWarp_tags (s : State) (w : Warp) : (s.setWarp w).tags = s.tags := rfl
@[simp] theorem State.setWarp_tlb (s : State) (w : Warp) : (s.setWarp w).tlb = s.tlb := rfl
@[simp] theorem State.setWarp_groups (s : State) (w : Warp) : (s.setWarp w).groups = s.groups := rfl
@[simp] theorem State.setWarp_grids (s : State) (w : Warp) : (s.setWarp w).grids = s.grids := rfl
@[simp] theorem State.setWarp_ctxs (s : State) (w : Warp) : (s.setWarp w).ctxs = s.ctxs := rfl
@[simp] theorem State.setWarp_kernels (s : State) (w : Warp) : (s.setWarp w).kernels = s.kernels := rfl
@[simp] theorem State.setWarp_parts (s : State) (w : Warp) : (s.setWarp w).parts = s.parts := rfl
@[simp] theorem State.setWarp_partst (s : State) (w : Warp) : (s.setWarp w).partst = s.partst := rfl
@[simp] theorem State.setWarp_acc (s : State) (w : Warp) : (s.setWarp w).acc = s.acc := rfl
@[simp] theorem State.setWarp_lows (s : State) (w : Warp) : (s.setWarp w).lows = s.lows := rfl
@[simp] theorem State.setWarp_mboxes (s : State) (w : Warp) : (s.setWarp w).mboxes = s.mboxes := rfl
@[simp] theorem State.setWarp_peers (s : State) (w : Warp) : (s.setWarp w).peers = s.peers := rfl
@[simp] theorem State.setWarp_foffer (s : State) (w : Warp) : (s.setWarp w).foffer = s.foffer := rfl
@[simp] theorem State.setWarp_fenable (s : State) (w : Warp) : (s.setWarp w).fenable = s.fenable := rfl
@[simp] theorem State.setWarp_flatch (s : State) (w : Warp) : (s.setWarp w).flatch = s.flatch := rfl
@[simp] theorem State.setWarp_started (s : State) (w : Warp) : (s.setWarp w).started = s.started := rfl
@[simp] theorem State.setWarp_copies (s : State) (w : Warp) : (s.setWarp w).copies = s.copies := rfl
@[simp] theorem State.setWarp_engines (s : State) (w : Warp) : (s.setWarp w).engines = s.engines := rfl
@[simp] theorem State.setWarp_remotes (s : State) (w : Warp) : (s.setWarp w).remotes = s.remotes := rfl
@[simp] theorem State.setWarp_hostHeld (s : State) (w : Warp) : (s.setWarp w).hostHeld = s.hostHeld := rfl
@[simp] theorem State.setWarp_frames (s : State) (w : Warp) : (s.setWarp w).frames = s.frames := rfl
@[simp] theorem State.setWarp_tagSeq (s : State) (w : Warp) : (s.setWarp w).tagSeq = s.tagSeq := rfl
@[simp] theorem State.setWarp_sampled (s : State) (w : Warp) : (s.setWarp w).sampled = s.sampled := rfl
@[simp] theorem State.setWarp_links (s : State) (w : Warp) : (s.setWarp w).links = s.links := rfl
@[simp] theorem State.setWarp_flows (s : State) (w : Warp) : (s.setWarp w).flows = s.flows := rfl
@[simp] theorem State.setWarp_errors (s : State) (w : Warp) : (s.setWarp w).errors = s.errors := rfl
@[simp] theorem State.setWarp_counters (s : State) (w : Warp) : (s.setWarp w).counters = s.counters := rfl
@[simp] theorem State.setWarp_firmware (s : State) (w : Warp) : (s.setWarp w).firmware = s.firmware := rfl
@[simp] theorem State.setWarp_weights (s : State) (w : Warp) : (s.setWarp w).weights = s.weights := rfl
@[simp] theorem State.setWarp_heldOut (s : State) (w : Warp) : (s.setWarp w).heldOut = s.heldOut := rfl
@[simp] theorem State.setWarp_barred (s : State) (w : Warp) : (s.setWarp w).barred = s.barred := rfl
@[simp] theorem State.setWarp_msix (s : State) (w : Warp) : (s.setWarp w).msix = s.msix := rfl
@[simp] theorem State.setWarp_irqs (s : State) (w : Warp) : (s.setWarp w).irqs = s.irqs := rfl
@[simp] theorem State.setWarp_reported (s : State) (w : Warp) : (s.setWarp w).reported = s.reported := rfl

/-! `State.setGroup` -/

@[simp] theorem State.setGroup_agenda (s : State) (g : Group) : (s.setGroup g).agenda = s.agenda := rfl
@[simp] theorem State.setGroup_cur (s : State) (g : Group) : (s.setGroup g).cur = s.cur := rfl
@[simp] theorem State.setGroup_draws (s : State) (g : Group) : (s.setGroup g).draws = s.draws := rfl
@[simp] theorem State.setGroup_prefer (s : State) (g : Group) : (s.setGroup g).prefer = s.prefer := rfl
@[simp] theorem State.setGroup_fresh (s : State) (g : Group) : (s.setGroup g).fresh = s.fresh := rfl
@[simp] theorem State.setGroup_ticks (s : State) (g : Group) : (s.setGroup g).ticks = s.ticks := rfl
@[simp] theorem State.setGroup_quireClk (s : State) (g : Group) : (s.setGroup g).quireClk = s.quireClk := rfl
@[simp] theorem State.setGroup_clkStep (s : State) (g : Group) : (s.setGroup g).clkStep = s.clkStep := rfl
@[simp] theorem State.setGroup_calm (s : State) (g : Group) : (s.setGroup g).calm = s.calm := rfl
@[simp] theorem State.setGroup_readings (s : State) (g : Group) : (s.setGroup g).readings = s.readings := rfl
@[simp] theorem State.setGroup_stepTime (s : State) (g : Group) : (s.setGroup g).stepTime = s.stepTime := rfl
@[simp] theorem State.setGroup_powerCap (s : State) (g : Group) : (s.setGroup g).powerCap = s.powerCap := rfl
@[simp] theorem State.setGroup_portBusy (s : State) (g : Group) : (s.setGroup g).portBusy = s.portBusy := rfl
@[simp] theorem State.setGroup_mem (s : State) (g : Group) : (s.setGroup g).mem = s.mem := rfl
@[simp] theorem State.setGroup_sbuf (s : State) (g : Group) : (s.setGroup g).sbuf = s.sbuf := rfl
@[simp] theorem State.setGroup_sbufSeq (s : State) (g : Group) : (s.setGroup g).sbufSeq = s.sbufSeq := rfl
@[simp] theorem State.setGroup_tags (s : State) (g : Group) : (s.setGroup g).tags = s.tags := rfl
@[simp] theorem State.setGroup_tlb (s : State) (g : Group) : (s.setGroup g).tlb = s.tlb := rfl
@[simp] theorem State.setGroup_warps (s : State) (g : Group) : (s.setGroup g).warps = s.warps := rfl
@[simp] theorem State.setGroup_grids (s : State) (g : Group) : (s.setGroup g).grids = s.grids := rfl
@[simp] theorem State.setGroup_ctxs (s : State) (g : Group) : (s.setGroup g).ctxs = s.ctxs := rfl
@[simp] theorem State.setGroup_kernels (s : State) (g : Group) : (s.setGroup g).kernels = s.kernels := rfl
@[simp] theorem State.setGroup_parts (s : State) (g : Group) : (s.setGroup g).parts = s.parts := rfl
@[simp] theorem State.setGroup_partst (s : State) (g : Group) : (s.setGroup g).partst = s.partst := rfl
@[simp] theorem State.setGroup_acc (s : State) (g : Group) : (s.setGroup g).acc = s.acc := rfl
@[simp] theorem State.setGroup_lows (s : State) (g : Group) : (s.setGroup g).lows = s.lows := rfl
@[simp] theorem State.setGroup_mboxes (s : State) (g : Group) : (s.setGroup g).mboxes = s.mboxes := rfl
@[simp] theorem State.setGroup_peers (s : State) (g : Group) : (s.setGroup g).peers = s.peers := rfl
@[simp] theorem State.setGroup_foffer (s : State) (g : Group) : (s.setGroup g).foffer = s.foffer := rfl
@[simp] theorem State.setGroup_fenable (s : State) (g : Group) : (s.setGroup g).fenable = s.fenable := rfl
@[simp] theorem State.setGroup_flatch (s : State) (g : Group) : (s.setGroup g).flatch = s.flatch := rfl
@[simp] theorem State.setGroup_started (s : State) (g : Group) : (s.setGroup g).started = s.started := rfl
@[simp] theorem State.setGroup_copies (s : State) (g : Group) : (s.setGroup g).copies = s.copies := rfl
@[simp] theorem State.setGroup_engines (s : State) (g : Group) : (s.setGroup g).engines = s.engines := rfl
@[simp] theorem State.setGroup_remotes (s : State) (g : Group) : (s.setGroup g).remotes = s.remotes := rfl
@[simp] theorem State.setGroup_hostHeld (s : State) (g : Group) : (s.setGroup g).hostHeld = s.hostHeld := rfl
@[simp] theorem State.setGroup_frames (s : State) (g : Group) : (s.setGroup g).frames = s.frames := rfl
@[simp] theorem State.setGroup_tagSeq (s : State) (g : Group) : (s.setGroup g).tagSeq = s.tagSeq := rfl
@[simp] theorem State.setGroup_sampled (s : State) (g : Group) : (s.setGroup g).sampled = s.sampled := rfl
@[simp] theorem State.setGroup_links (s : State) (g : Group) : (s.setGroup g).links = s.links := rfl
@[simp] theorem State.setGroup_flows (s : State) (g : Group) : (s.setGroup g).flows = s.flows := rfl
@[simp] theorem State.setGroup_errors (s : State) (g : Group) : (s.setGroup g).errors = s.errors := rfl
@[simp] theorem State.setGroup_counters (s : State) (g : Group) : (s.setGroup g).counters = s.counters := rfl
@[simp] theorem State.setGroup_firmware (s : State) (g : Group) : (s.setGroup g).firmware = s.firmware := rfl
@[simp] theorem State.setGroup_weights (s : State) (g : Group) : (s.setGroup g).weights = s.weights := rfl
@[simp] theorem State.setGroup_heldOut (s : State) (g : Group) : (s.setGroup g).heldOut = s.heldOut := rfl
@[simp] theorem State.setGroup_barred (s : State) (g : Group) : (s.setGroup g).barred = s.barred := rfl
@[simp] theorem State.setGroup_msix (s : State) (g : Group) : (s.setGroup g).msix = s.msix := rfl
@[simp] theorem State.setGroup_irqs (s : State) (g : Group) : (s.setGroup g).irqs = s.irqs := rfl
@[simp] theorem State.setGroup_reported (s : State) (g : Group) : (s.setGroup g).reported = s.reported := rfl

/-! `State.setGrid` -/

@[simp] theorem State.setGrid_agenda (s : State) (g : Grid) : (s.setGrid g).agenda = s.agenda := rfl
@[simp] theorem State.setGrid_cur (s : State) (g : Grid) : (s.setGrid g).cur = s.cur := rfl
@[simp] theorem State.setGrid_draws (s : State) (g : Grid) : (s.setGrid g).draws = s.draws := rfl
@[simp] theorem State.setGrid_prefer (s : State) (g : Grid) : (s.setGrid g).prefer = s.prefer := rfl
@[simp] theorem State.setGrid_fresh (s : State) (g : Grid) : (s.setGrid g).fresh = s.fresh := rfl
@[simp] theorem State.setGrid_ticks (s : State) (g : Grid) : (s.setGrid g).ticks = s.ticks := rfl
@[simp] theorem State.setGrid_quireClk (s : State) (g : Grid) : (s.setGrid g).quireClk = s.quireClk := rfl
@[simp] theorem State.setGrid_clkStep (s : State) (g : Grid) : (s.setGrid g).clkStep = s.clkStep := rfl
@[simp] theorem State.setGrid_calm (s : State) (g : Grid) : (s.setGrid g).calm = s.calm := rfl
@[simp] theorem State.setGrid_readings (s : State) (g : Grid) : (s.setGrid g).readings = s.readings := rfl
@[simp] theorem State.setGrid_stepTime (s : State) (g : Grid) : (s.setGrid g).stepTime = s.stepTime := rfl
@[simp] theorem State.setGrid_powerCap (s : State) (g : Grid) : (s.setGrid g).powerCap = s.powerCap := rfl
@[simp] theorem State.setGrid_portBusy (s : State) (g : Grid) : (s.setGrid g).portBusy = s.portBusy := rfl
@[simp] theorem State.setGrid_mem (s : State) (g : Grid) : (s.setGrid g).mem = s.mem := rfl
@[simp] theorem State.setGrid_sbuf (s : State) (g : Grid) : (s.setGrid g).sbuf = s.sbuf := rfl
@[simp] theorem State.setGrid_sbufSeq (s : State) (g : Grid) : (s.setGrid g).sbufSeq = s.sbufSeq := rfl
@[simp] theorem State.setGrid_tags (s : State) (g : Grid) : (s.setGrid g).tags = s.tags := rfl
@[simp] theorem State.setGrid_tlb (s : State) (g : Grid) : (s.setGrid g).tlb = s.tlb := rfl
@[simp] theorem State.setGrid_warps (s : State) (g : Grid) : (s.setGrid g).warps = s.warps := rfl
@[simp] theorem State.setGrid_groups (s : State) (g : Grid) : (s.setGrid g).groups = s.groups := rfl
@[simp] theorem State.setGrid_ctxs (s : State) (g : Grid) : (s.setGrid g).ctxs = s.ctxs := rfl
@[simp] theorem State.setGrid_kernels (s : State) (g : Grid) : (s.setGrid g).kernels = s.kernels := rfl
@[simp] theorem State.setGrid_parts (s : State) (g : Grid) : (s.setGrid g).parts = s.parts := rfl
@[simp] theorem State.setGrid_partst (s : State) (g : Grid) : (s.setGrid g).partst = s.partst := rfl
@[simp] theorem State.setGrid_acc (s : State) (g : Grid) : (s.setGrid g).acc = s.acc := rfl
@[simp] theorem State.setGrid_lows (s : State) (g : Grid) : (s.setGrid g).lows = s.lows := rfl
@[simp] theorem State.setGrid_mboxes (s : State) (g : Grid) : (s.setGrid g).mboxes = s.mboxes := rfl
@[simp] theorem State.setGrid_peers (s : State) (g : Grid) : (s.setGrid g).peers = s.peers := rfl
@[simp] theorem State.setGrid_foffer (s : State) (g : Grid) : (s.setGrid g).foffer = s.foffer := rfl
@[simp] theorem State.setGrid_fenable (s : State) (g : Grid) : (s.setGrid g).fenable = s.fenable := rfl
@[simp] theorem State.setGrid_flatch (s : State) (g : Grid) : (s.setGrid g).flatch = s.flatch := rfl
@[simp] theorem State.setGrid_started (s : State) (g : Grid) : (s.setGrid g).started = s.started := rfl
@[simp] theorem State.setGrid_copies (s : State) (g : Grid) : (s.setGrid g).copies = s.copies := rfl
@[simp] theorem State.setGrid_engines (s : State) (g : Grid) : (s.setGrid g).engines = s.engines := rfl
@[simp] theorem State.setGrid_remotes (s : State) (g : Grid) : (s.setGrid g).remotes = s.remotes := rfl
@[simp] theorem State.setGrid_hostHeld (s : State) (g : Grid) : (s.setGrid g).hostHeld = s.hostHeld := rfl
@[simp] theorem State.setGrid_frames (s : State) (g : Grid) : (s.setGrid g).frames = s.frames := rfl
@[simp] theorem State.setGrid_tagSeq (s : State) (g : Grid) : (s.setGrid g).tagSeq = s.tagSeq := rfl
@[simp] theorem State.setGrid_sampled (s : State) (g : Grid) : (s.setGrid g).sampled = s.sampled := rfl
@[simp] theorem State.setGrid_links (s : State) (g : Grid) : (s.setGrid g).links = s.links := rfl
@[simp] theorem State.setGrid_flows (s : State) (g : Grid) : (s.setGrid g).flows = s.flows := rfl
@[simp] theorem State.setGrid_errors (s : State) (g : Grid) : (s.setGrid g).errors = s.errors := rfl
@[simp] theorem State.setGrid_counters (s : State) (g : Grid) : (s.setGrid g).counters = s.counters := rfl
@[simp] theorem State.setGrid_firmware (s : State) (g : Grid) : (s.setGrid g).firmware = s.firmware := rfl
@[simp] theorem State.setGrid_weights (s : State) (g : Grid) : (s.setGrid g).weights = s.weights := rfl
@[simp] theorem State.setGrid_heldOut (s : State) (g : Grid) : (s.setGrid g).heldOut = s.heldOut := rfl
@[simp] theorem State.setGrid_barred (s : State) (g : Grid) : (s.setGrid g).barred = s.barred := rfl
@[simp] theorem State.setGrid_msix (s : State) (g : Grid) : (s.setGrid g).msix = s.msix := rfl
@[simp] theorem State.setGrid_irqs (s : State) (g : Grid) : (s.setGrid g).irqs = s.irqs := rfl
@[simp] theorem State.setGrid_reported (s : State) (g : Grid) : (s.setGrid g).reported = s.reported := rfl

/-! `State.setCtx` -/

@[simp] theorem State.setCtx_agenda (s : State) (c : Ctx) : (s.setCtx c).agenda = s.agenda := rfl
@[simp] theorem State.setCtx_cur (s : State) (c : Ctx) : (s.setCtx c).cur = s.cur := rfl
@[simp] theorem State.setCtx_draws (s : State) (c : Ctx) : (s.setCtx c).draws = s.draws := rfl
@[simp] theorem State.setCtx_prefer (s : State) (c : Ctx) : (s.setCtx c).prefer = s.prefer := rfl
@[simp] theorem State.setCtx_fresh (s : State) (c : Ctx) : (s.setCtx c).fresh = s.fresh := rfl
@[simp] theorem State.setCtx_ticks (s : State) (c : Ctx) : (s.setCtx c).ticks = s.ticks := rfl
@[simp] theorem State.setCtx_quireClk (s : State) (c : Ctx) : (s.setCtx c).quireClk = s.quireClk := rfl
@[simp] theorem State.setCtx_clkStep (s : State) (c : Ctx) : (s.setCtx c).clkStep = s.clkStep := rfl
@[simp] theorem State.setCtx_calm (s : State) (c : Ctx) : (s.setCtx c).calm = s.calm := rfl
@[simp] theorem State.setCtx_readings (s : State) (c : Ctx) : (s.setCtx c).readings = s.readings := rfl
@[simp] theorem State.setCtx_stepTime (s : State) (c : Ctx) : (s.setCtx c).stepTime = s.stepTime := rfl
@[simp] theorem State.setCtx_powerCap (s : State) (c : Ctx) : (s.setCtx c).powerCap = s.powerCap := rfl
@[simp] theorem State.setCtx_portBusy (s : State) (c : Ctx) : (s.setCtx c).portBusy = s.portBusy := rfl
@[simp] theorem State.setCtx_mem (s : State) (c : Ctx) : (s.setCtx c).mem = s.mem := rfl
@[simp] theorem State.setCtx_sbuf (s : State) (c : Ctx) : (s.setCtx c).sbuf = s.sbuf := rfl
@[simp] theorem State.setCtx_sbufSeq (s : State) (c : Ctx) : (s.setCtx c).sbufSeq = s.sbufSeq := rfl
@[simp] theorem State.setCtx_tags (s : State) (c : Ctx) : (s.setCtx c).tags = s.tags := rfl
@[simp] theorem State.setCtx_tlb (s : State) (c : Ctx) : (s.setCtx c).tlb = s.tlb := rfl
@[simp] theorem State.setCtx_warps (s : State) (c : Ctx) : (s.setCtx c).warps = s.warps := rfl
@[simp] theorem State.setCtx_groups (s : State) (c : Ctx) : (s.setCtx c).groups = s.groups := rfl
@[simp] theorem State.setCtx_grids (s : State) (c : Ctx) : (s.setCtx c).grids = s.grids := rfl
@[simp] theorem State.setCtx_kernels (s : State) (c : Ctx) : (s.setCtx c).kernels = s.kernels := rfl
@[simp] theorem State.setCtx_parts (s : State) (c : Ctx) : (s.setCtx c).parts = s.parts := rfl
@[simp] theorem State.setCtx_partst (s : State) (c : Ctx) : (s.setCtx c).partst = s.partst := rfl
@[simp] theorem State.setCtx_acc (s : State) (c : Ctx) : (s.setCtx c).acc = s.acc := rfl
@[simp] theorem State.setCtx_lows (s : State) (c : Ctx) : (s.setCtx c).lows = s.lows := rfl
@[simp] theorem State.setCtx_mboxes (s : State) (c : Ctx) : (s.setCtx c).mboxes = s.mboxes := rfl
@[simp] theorem State.setCtx_peers (s : State) (c : Ctx) : (s.setCtx c).peers = s.peers := rfl
@[simp] theorem State.setCtx_foffer (s : State) (c : Ctx) : (s.setCtx c).foffer = s.foffer := rfl
@[simp] theorem State.setCtx_fenable (s : State) (c : Ctx) : (s.setCtx c).fenable = s.fenable := rfl
@[simp] theorem State.setCtx_flatch (s : State) (c : Ctx) : (s.setCtx c).flatch = s.flatch := rfl
@[simp] theorem State.setCtx_started (s : State) (c : Ctx) : (s.setCtx c).started = s.started := rfl
@[simp] theorem State.setCtx_copies (s : State) (c : Ctx) : (s.setCtx c).copies = s.copies := rfl
@[simp] theorem State.setCtx_engines (s : State) (c : Ctx) : (s.setCtx c).engines = s.engines := rfl
@[simp] theorem State.setCtx_remotes (s : State) (c : Ctx) : (s.setCtx c).remotes = s.remotes := rfl
@[simp] theorem State.setCtx_hostHeld (s : State) (c : Ctx) : (s.setCtx c).hostHeld = s.hostHeld := rfl
@[simp] theorem State.setCtx_frames (s : State) (c : Ctx) : (s.setCtx c).frames = s.frames := rfl
@[simp] theorem State.setCtx_tagSeq (s : State) (c : Ctx) : (s.setCtx c).tagSeq = s.tagSeq := rfl
@[simp] theorem State.setCtx_sampled (s : State) (c : Ctx) : (s.setCtx c).sampled = s.sampled := rfl
@[simp] theorem State.setCtx_links (s : State) (c : Ctx) : (s.setCtx c).links = s.links := rfl
@[simp] theorem State.setCtx_flows (s : State) (c : Ctx) : (s.setCtx c).flows = s.flows := rfl
@[simp] theorem State.setCtx_errors (s : State) (c : Ctx) : (s.setCtx c).errors = s.errors := rfl
@[simp] theorem State.setCtx_counters (s : State) (c : Ctx) : (s.setCtx c).counters = s.counters := rfl
@[simp] theorem State.setCtx_firmware (s : State) (c : Ctx) : (s.setCtx c).firmware = s.firmware := rfl
@[simp] theorem State.setCtx_weights (s : State) (c : Ctx) : (s.setCtx c).weights = s.weights := rfl
@[simp] theorem State.setCtx_heldOut (s : State) (c : Ctx) : (s.setCtx c).heldOut = s.heldOut := rfl
@[simp] theorem State.setCtx_barred (s : State) (c : Ctx) : (s.setCtx c).barred = s.barred := rfl
@[simp] theorem State.setCtx_msix (s : State) (c : Ctx) : (s.setCtx c).msix = s.msix := rfl
@[simp] theorem State.setCtx_irqs (s : State) (c : Ctx) : (s.setCtx c).irqs = s.irqs := rfl
@[simp] theorem State.setCtx_reported (s : State) (c : Ctx) : (s.setCtx c).reported = s.reported := rfl

/-! `State.setCopy` -/

@[simp] theorem State.setCopy_agenda (s : State) (c : Copy) : (s.setCopy c).agenda = s.agenda := rfl
@[simp] theorem State.setCopy_cur (s : State) (c : Copy) : (s.setCopy c).cur = s.cur := rfl
@[simp] theorem State.setCopy_draws (s : State) (c : Copy) : (s.setCopy c).draws = s.draws := rfl
@[simp] theorem State.setCopy_prefer (s : State) (c : Copy) : (s.setCopy c).prefer = s.prefer := rfl
@[simp] theorem State.setCopy_fresh (s : State) (c : Copy) : (s.setCopy c).fresh = s.fresh := rfl
@[simp] theorem State.setCopy_ticks (s : State) (c : Copy) : (s.setCopy c).ticks = s.ticks := rfl
@[simp] theorem State.setCopy_quireClk (s : State) (c : Copy) : (s.setCopy c).quireClk = s.quireClk := rfl
@[simp] theorem State.setCopy_clkStep (s : State) (c : Copy) : (s.setCopy c).clkStep = s.clkStep := rfl
@[simp] theorem State.setCopy_calm (s : State) (c : Copy) : (s.setCopy c).calm = s.calm := rfl
@[simp] theorem State.setCopy_readings (s : State) (c : Copy) : (s.setCopy c).readings = s.readings := rfl
@[simp] theorem State.setCopy_stepTime (s : State) (c : Copy) : (s.setCopy c).stepTime = s.stepTime := rfl
@[simp] theorem State.setCopy_powerCap (s : State) (c : Copy) : (s.setCopy c).powerCap = s.powerCap := rfl
@[simp] theorem State.setCopy_portBusy (s : State) (c : Copy) : (s.setCopy c).portBusy = s.portBusy := rfl
@[simp] theorem State.setCopy_mem (s : State) (c : Copy) : (s.setCopy c).mem = s.mem := rfl
@[simp] theorem State.setCopy_sbuf (s : State) (c : Copy) : (s.setCopy c).sbuf = s.sbuf := rfl
@[simp] theorem State.setCopy_sbufSeq (s : State) (c : Copy) : (s.setCopy c).sbufSeq = s.sbufSeq := rfl
@[simp] theorem State.setCopy_tags (s : State) (c : Copy) : (s.setCopy c).tags = s.tags := rfl
@[simp] theorem State.setCopy_tlb (s : State) (c : Copy) : (s.setCopy c).tlb = s.tlb := rfl
@[simp] theorem State.setCopy_warps (s : State) (c : Copy) : (s.setCopy c).warps = s.warps := rfl
@[simp] theorem State.setCopy_groups (s : State) (c : Copy) : (s.setCopy c).groups = s.groups := rfl
@[simp] theorem State.setCopy_grids (s : State) (c : Copy) : (s.setCopy c).grids = s.grids := rfl
@[simp] theorem State.setCopy_ctxs (s : State) (c : Copy) : (s.setCopy c).ctxs = s.ctxs := rfl
@[simp] theorem State.setCopy_kernels (s : State) (c : Copy) : (s.setCopy c).kernels = s.kernels := rfl
@[simp] theorem State.setCopy_parts (s : State) (c : Copy) : (s.setCopy c).parts = s.parts := rfl
@[simp] theorem State.setCopy_partst (s : State) (c : Copy) : (s.setCopy c).partst = s.partst := rfl
@[simp] theorem State.setCopy_acc (s : State) (c : Copy) : (s.setCopy c).acc = s.acc := rfl
@[simp] theorem State.setCopy_lows (s : State) (c : Copy) : (s.setCopy c).lows = s.lows := rfl
@[simp] theorem State.setCopy_mboxes (s : State) (c : Copy) : (s.setCopy c).mboxes = s.mboxes := rfl
@[simp] theorem State.setCopy_peers (s : State) (c : Copy) : (s.setCopy c).peers = s.peers := rfl
@[simp] theorem State.setCopy_foffer (s : State) (c : Copy) : (s.setCopy c).foffer = s.foffer := rfl
@[simp] theorem State.setCopy_fenable (s : State) (c : Copy) : (s.setCopy c).fenable = s.fenable := rfl
@[simp] theorem State.setCopy_flatch (s : State) (c : Copy) : (s.setCopy c).flatch = s.flatch := rfl
@[simp] theorem State.setCopy_started (s : State) (c : Copy) : (s.setCopy c).started = s.started := rfl
@[simp] theorem State.setCopy_engines (s : State) (c : Copy) : (s.setCopy c).engines = s.engines := rfl
@[simp] theorem State.setCopy_remotes (s : State) (c : Copy) : (s.setCopy c).remotes = s.remotes := rfl
@[simp] theorem State.setCopy_hostHeld (s : State) (c : Copy) : (s.setCopy c).hostHeld = s.hostHeld := rfl
@[simp] theorem State.setCopy_frames (s : State) (c : Copy) : (s.setCopy c).frames = s.frames := rfl
@[simp] theorem State.setCopy_tagSeq (s : State) (c : Copy) : (s.setCopy c).tagSeq = s.tagSeq := rfl
@[simp] theorem State.setCopy_sampled (s : State) (c : Copy) : (s.setCopy c).sampled = s.sampled := rfl
@[simp] theorem State.setCopy_links (s : State) (c : Copy) : (s.setCopy c).links = s.links := rfl
@[simp] theorem State.setCopy_flows (s : State) (c : Copy) : (s.setCopy c).flows = s.flows := rfl
@[simp] theorem State.setCopy_errors (s : State) (c : Copy) : (s.setCopy c).errors = s.errors := rfl
@[simp] theorem State.setCopy_counters (s : State) (c : Copy) : (s.setCopy c).counters = s.counters := rfl
@[simp] theorem State.setCopy_firmware (s : State) (c : Copy) : (s.setCopy c).firmware = s.firmware := rfl
@[simp] theorem State.setCopy_weights (s : State) (c : Copy) : (s.setCopy c).weights = s.weights := rfl
@[simp] theorem State.setCopy_heldOut (s : State) (c : Copy) : (s.setCopy c).heldOut = s.heldOut := rfl
@[simp] theorem State.setCopy_barred (s : State) (c : Copy) : (s.setCopy c).barred = s.barred := rfl
@[simp] theorem State.setCopy_msix (s : State) (c : Copy) : (s.setCopy c).msix = s.msix := rfl
@[simp] theorem State.setCopy_irqs (s : State) (c : Copy) : (s.setCopy c).irqs = s.irqs := rfl
@[simp] theorem State.setCopy_reported (s : State) (c : Copy) : (s.setCopy c).reported = s.reported := rfl

/-! `State.setMbox` -/

@[simp] theorem State.setMbox_agenda (s : State) (b : Mailbox) : (s.setMbox b).agenda = s.agenda := rfl
@[simp] theorem State.setMbox_cur (s : State) (b : Mailbox) : (s.setMbox b).cur = s.cur := rfl
@[simp] theorem State.setMbox_draws (s : State) (b : Mailbox) : (s.setMbox b).draws = s.draws := rfl
@[simp] theorem State.setMbox_prefer (s : State) (b : Mailbox) : (s.setMbox b).prefer = s.prefer := rfl
@[simp] theorem State.setMbox_fresh (s : State) (b : Mailbox) : (s.setMbox b).fresh = s.fresh := rfl
@[simp] theorem State.setMbox_ticks (s : State) (b : Mailbox) : (s.setMbox b).ticks = s.ticks := rfl
@[simp] theorem State.setMbox_quireClk (s : State) (b : Mailbox) : (s.setMbox b).quireClk = s.quireClk := rfl
@[simp] theorem State.setMbox_clkStep (s : State) (b : Mailbox) : (s.setMbox b).clkStep = s.clkStep := rfl
@[simp] theorem State.setMbox_calm (s : State) (b : Mailbox) : (s.setMbox b).calm = s.calm := rfl
@[simp] theorem State.setMbox_readings (s : State) (b : Mailbox) : (s.setMbox b).readings = s.readings := rfl
@[simp] theorem State.setMbox_stepTime (s : State) (b : Mailbox) : (s.setMbox b).stepTime = s.stepTime := rfl
@[simp] theorem State.setMbox_powerCap (s : State) (b : Mailbox) : (s.setMbox b).powerCap = s.powerCap := rfl
@[simp] theorem State.setMbox_portBusy (s : State) (b : Mailbox) : (s.setMbox b).portBusy = s.portBusy := rfl
@[simp] theorem State.setMbox_mem (s : State) (b : Mailbox) : (s.setMbox b).mem = s.mem := rfl
@[simp] theorem State.setMbox_sbuf (s : State) (b : Mailbox) : (s.setMbox b).sbuf = s.sbuf := rfl
@[simp] theorem State.setMbox_sbufSeq (s : State) (b : Mailbox) : (s.setMbox b).sbufSeq = s.sbufSeq := rfl
@[simp] theorem State.setMbox_tags (s : State) (b : Mailbox) : (s.setMbox b).tags = s.tags := rfl
@[simp] theorem State.setMbox_tlb (s : State) (b : Mailbox) : (s.setMbox b).tlb = s.tlb := rfl
@[simp] theorem State.setMbox_warps (s : State) (b : Mailbox) : (s.setMbox b).warps = s.warps := rfl
@[simp] theorem State.setMbox_groups (s : State) (b : Mailbox) : (s.setMbox b).groups = s.groups := rfl
@[simp] theorem State.setMbox_grids (s : State) (b : Mailbox) : (s.setMbox b).grids = s.grids := rfl
@[simp] theorem State.setMbox_ctxs (s : State) (b : Mailbox) : (s.setMbox b).ctxs = s.ctxs := rfl
@[simp] theorem State.setMbox_kernels (s : State) (b : Mailbox) : (s.setMbox b).kernels = s.kernels := rfl
@[simp] theorem State.setMbox_parts (s : State) (b : Mailbox) : (s.setMbox b).parts = s.parts := rfl
@[simp] theorem State.setMbox_partst (s : State) (b : Mailbox) : (s.setMbox b).partst = s.partst := rfl
@[simp] theorem State.setMbox_acc (s : State) (b : Mailbox) : (s.setMbox b).acc = s.acc := rfl
@[simp] theorem State.setMbox_lows (s : State) (b : Mailbox) : (s.setMbox b).lows = s.lows := rfl
@[simp] theorem State.setMbox_peers (s : State) (b : Mailbox) : (s.setMbox b).peers = s.peers := rfl
@[simp] theorem State.setMbox_foffer (s : State) (b : Mailbox) : (s.setMbox b).foffer = s.foffer := rfl
@[simp] theorem State.setMbox_fenable (s : State) (b : Mailbox) : (s.setMbox b).fenable = s.fenable := rfl
@[simp] theorem State.setMbox_flatch (s : State) (b : Mailbox) : (s.setMbox b).flatch = s.flatch := rfl
@[simp] theorem State.setMbox_started (s : State) (b : Mailbox) : (s.setMbox b).started = s.started := rfl
@[simp] theorem State.setMbox_copies (s : State) (b : Mailbox) : (s.setMbox b).copies = s.copies := rfl
@[simp] theorem State.setMbox_engines (s : State) (b : Mailbox) : (s.setMbox b).engines = s.engines := rfl
@[simp] theorem State.setMbox_remotes (s : State) (b : Mailbox) : (s.setMbox b).remotes = s.remotes := rfl
@[simp] theorem State.setMbox_hostHeld (s : State) (b : Mailbox) : (s.setMbox b).hostHeld = s.hostHeld := rfl
@[simp] theorem State.setMbox_frames (s : State) (b : Mailbox) : (s.setMbox b).frames = s.frames := rfl
@[simp] theorem State.setMbox_tagSeq (s : State) (b : Mailbox) : (s.setMbox b).tagSeq = s.tagSeq := rfl
@[simp] theorem State.setMbox_sampled (s : State) (b : Mailbox) : (s.setMbox b).sampled = s.sampled := rfl
@[simp] theorem State.setMbox_links (s : State) (b : Mailbox) : (s.setMbox b).links = s.links := rfl
@[simp] theorem State.setMbox_flows (s : State) (b : Mailbox) : (s.setMbox b).flows = s.flows := rfl
@[simp] theorem State.setMbox_errors (s : State) (b : Mailbox) : (s.setMbox b).errors = s.errors := rfl
@[simp] theorem State.setMbox_counters (s : State) (b : Mailbox) : (s.setMbox b).counters = s.counters := rfl
@[simp] theorem State.setMbox_firmware (s : State) (b : Mailbox) : (s.setMbox b).firmware = s.firmware := rfl
@[simp] theorem State.setMbox_weights (s : State) (b : Mailbox) : (s.setMbox b).weights = s.weights := rfl
@[simp] theorem State.setMbox_heldOut (s : State) (b : Mailbox) : (s.setMbox b).heldOut = s.heldOut := rfl
@[simp] theorem State.setMbox_barred (s : State) (b : Mailbox) : (s.setMbox b).barred = s.barred := rfl
@[simp] theorem State.setMbox_msix (s : State) (b : Mailbox) : (s.setMbox b).msix = s.msix := rfl
@[simp] theorem State.setMbox_irqs (s : State) (b : Mailbox) : (s.setMbox b).irqs = s.irqs := rfl
@[simp] theorem State.setMbox_reported (s : State) (b : Mailbox) : (s.setMbox b).reported = s.reported := rfl

/-! `State.setLink` -/

@[simp] theorem State.setLink_agenda (s : State) (n : Nat) (l : Link) : (s.setLink n l).agenda = s.agenda := rfl
@[simp] theorem State.setLink_cur (s : State) (n : Nat) (l : Link) : (s.setLink n l).cur = s.cur := rfl
@[simp] theorem State.setLink_draws (s : State) (n : Nat) (l : Link) : (s.setLink n l).draws = s.draws := rfl
@[simp] theorem State.setLink_prefer (s : State) (n : Nat) (l : Link) : (s.setLink n l).prefer = s.prefer := rfl
@[simp] theorem State.setLink_fresh (s : State) (n : Nat) (l : Link) : (s.setLink n l).fresh = s.fresh := rfl
@[simp] theorem State.setLink_ticks (s : State) (n : Nat) (l : Link) : (s.setLink n l).ticks = s.ticks := rfl
@[simp] theorem State.setLink_quireClk (s : State) (n : Nat) (l : Link) : (s.setLink n l).quireClk = s.quireClk := rfl
@[simp] theorem State.setLink_clkStep (s : State) (n : Nat) (l : Link) : (s.setLink n l).clkStep = s.clkStep := rfl
@[simp] theorem State.setLink_calm (s : State) (n : Nat) (l : Link) : (s.setLink n l).calm = s.calm := rfl
@[simp] theorem State.setLink_readings (s : State) (n : Nat) (l : Link) : (s.setLink n l).readings = s.readings := rfl
@[simp] theorem State.setLink_stepTime (s : State) (n : Nat) (l : Link) : (s.setLink n l).stepTime = s.stepTime := rfl
@[simp] theorem State.setLink_powerCap (s : State) (n : Nat) (l : Link) : (s.setLink n l).powerCap = s.powerCap := rfl
@[simp] theorem State.setLink_portBusy (s : State) (n : Nat) (l : Link) : (s.setLink n l).portBusy = s.portBusy := rfl
@[simp] theorem State.setLink_mem (s : State) (n : Nat) (l : Link) : (s.setLink n l).mem = s.mem := rfl
@[simp] theorem State.setLink_sbuf (s : State) (n : Nat) (l : Link) : (s.setLink n l).sbuf = s.sbuf := rfl
@[simp] theorem State.setLink_sbufSeq (s : State) (n : Nat) (l : Link) : (s.setLink n l).sbufSeq = s.sbufSeq := rfl
@[simp] theorem State.setLink_tags (s : State) (n : Nat) (l : Link) : (s.setLink n l).tags = s.tags := rfl
@[simp] theorem State.setLink_tlb (s : State) (n : Nat) (l : Link) : (s.setLink n l).tlb = s.tlb := rfl
@[simp] theorem State.setLink_warps (s : State) (n : Nat) (l : Link) : (s.setLink n l).warps = s.warps := rfl
@[simp] theorem State.setLink_groups (s : State) (n : Nat) (l : Link) : (s.setLink n l).groups = s.groups := rfl
@[simp] theorem State.setLink_grids (s : State) (n : Nat) (l : Link) : (s.setLink n l).grids = s.grids := rfl
@[simp] theorem State.setLink_ctxs (s : State) (n : Nat) (l : Link) : (s.setLink n l).ctxs = s.ctxs := rfl
@[simp] theorem State.setLink_kernels (s : State) (n : Nat) (l : Link) : (s.setLink n l).kernels = s.kernels := rfl
@[simp] theorem State.setLink_parts (s : State) (n : Nat) (l : Link) : (s.setLink n l).parts = s.parts := rfl
@[simp] theorem State.setLink_partst (s : State) (n : Nat) (l : Link) : (s.setLink n l).partst = s.partst := rfl
@[simp] theorem State.setLink_acc (s : State) (n : Nat) (l : Link) : (s.setLink n l).acc = s.acc := rfl
@[simp] theorem State.setLink_lows (s : State) (n : Nat) (l : Link) : (s.setLink n l).lows = s.lows := rfl
@[simp] theorem State.setLink_mboxes (s : State) (n : Nat) (l : Link) : (s.setLink n l).mboxes = s.mboxes := rfl
@[simp] theorem State.setLink_peers (s : State) (n : Nat) (l : Link) : (s.setLink n l).peers = s.peers := rfl
@[simp] theorem State.setLink_foffer (s : State) (n : Nat) (l : Link) : (s.setLink n l).foffer = s.foffer := rfl
@[simp] theorem State.setLink_fenable (s : State) (n : Nat) (l : Link) : (s.setLink n l).fenable = s.fenable := rfl
@[simp] theorem State.setLink_flatch (s : State) (n : Nat) (l : Link) : (s.setLink n l).flatch = s.flatch := rfl
@[simp] theorem State.setLink_started (s : State) (n : Nat) (l : Link) : (s.setLink n l).started = s.started := rfl
@[simp] theorem State.setLink_copies (s : State) (n : Nat) (l : Link) : (s.setLink n l).copies = s.copies := rfl
@[simp] theorem State.setLink_engines (s : State) (n : Nat) (l : Link) : (s.setLink n l).engines = s.engines := rfl
@[simp] theorem State.setLink_remotes (s : State) (n : Nat) (l : Link) : (s.setLink n l).remotes = s.remotes := rfl
@[simp] theorem State.setLink_hostHeld (s : State) (n : Nat) (l : Link) : (s.setLink n l).hostHeld = s.hostHeld := rfl
@[simp] theorem State.setLink_frames (s : State) (n : Nat) (l : Link) : (s.setLink n l).frames = s.frames := rfl
@[simp] theorem State.setLink_tagSeq (s : State) (n : Nat) (l : Link) : (s.setLink n l).tagSeq = s.tagSeq := rfl
@[simp] theorem State.setLink_sampled (s : State) (n : Nat) (l : Link) : (s.setLink n l).sampled = s.sampled := rfl
@[simp] theorem State.setLink_flows (s : State) (n : Nat) (l : Link) : (s.setLink n l).flows = s.flows := rfl
@[simp] theorem State.setLink_errors (s : State) (n : Nat) (l : Link) : (s.setLink n l).errors = s.errors := rfl
@[simp] theorem State.setLink_counters (s : State) (n : Nat) (l : Link) : (s.setLink n l).counters = s.counters := rfl
@[simp] theorem State.setLink_firmware (s : State) (n : Nat) (l : Link) : (s.setLink n l).firmware = s.firmware := rfl
@[simp] theorem State.setLink_weights (s : State) (n : Nat) (l : Link) : (s.setLink n l).weights = s.weights := rfl
@[simp] theorem State.setLink_heldOut (s : State) (n : Nat) (l : Link) : (s.setLink n l).heldOut = s.heldOut := rfl
@[simp] theorem State.setLink_barred (s : State) (n : Nat) (l : Link) : (s.setLink n l).barred = s.barred := rfl
@[simp] theorem State.setLink_msix (s : State) (n : Nat) (l : Link) : (s.setLink n l).msix = s.msix := rfl
@[simp] theorem State.setLink_irqs (s : State) (n : Nat) (l : Link) : (s.setLink n l).irqs = s.irqs := rfl
@[simp] theorem State.setLink_reported (s : State) (n : Nat) (l : Link) : (s.setLink n l).reported = s.reported := rfl

/-! `State.setPart` -/

@[simp] theorem State.setPart_agenda (s : State) (n : Nat) (P : Part) : (s.setPart n P).agenda = s.agenda := rfl
@[simp] theorem State.setPart_cur (s : State) (n : Nat) (P : Part) : (s.setPart n P).cur = s.cur := rfl
@[simp] theorem State.setPart_draws (s : State) (n : Nat) (P : Part) : (s.setPart n P).draws = s.draws := rfl
@[simp] theorem State.setPart_prefer (s : State) (n : Nat) (P : Part) : (s.setPart n P).prefer = s.prefer := rfl
@[simp] theorem State.setPart_fresh (s : State) (n : Nat) (P : Part) : (s.setPart n P).fresh = s.fresh := rfl
@[simp] theorem State.setPart_ticks (s : State) (n : Nat) (P : Part) : (s.setPart n P).ticks = s.ticks := rfl
@[simp] theorem State.setPart_quireClk (s : State) (n : Nat) (P : Part) : (s.setPart n P).quireClk = s.quireClk := rfl
@[simp] theorem State.setPart_clkStep (s : State) (n : Nat) (P : Part) : (s.setPart n P).clkStep = s.clkStep := rfl
@[simp] theorem State.setPart_calm (s : State) (n : Nat) (P : Part) : (s.setPart n P).calm = s.calm := rfl
@[simp] theorem State.setPart_readings (s : State) (n : Nat) (P : Part) : (s.setPart n P).readings = s.readings := rfl
@[simp] theorem State.setPart_stepTime (s : State) (n : Nat) (P : Part) : (s.setPart n P).stepTime = s.stepTime := rfl
@[simp] theorem State.setPart_powerCap (s : State) (n : Nat) (P : Part) : (s.setPart n P).powerCap = s.powerCap := rfl
@[simp] theorem State.setPart_portBusy (s : State) (n : Nat) (P : Part) : (s.setPart n P).portBusy = s.portBusy := rfl
@[simp] theorem State.setPart_mem (s : State) (n : Nat) (P : Part) : (s.setPart n P).mem = s.mem := rfl
@[simp] theorem State.setPart_sbuf (s : State) (n : Nat) (P : Part) : (s.setPart n P).sbuf = s.sbuf := rfl
@[simp] theorem State.setPart_sbufSeq (s : State) (n : Nat) (P : Part) : (s.setPart n P).sbufSeq = s.sbufSeq := rfl
@[simp] theorem State.setPart_tags (s : State) (n : Nat) (P : Part) : (s.setPart n P).tags = s.tags := rfl
@[simp] theorem State.setPart_tlb (s : State) (n : Nat) (P : Part) : (s.setPart n P).tlb = s.tlb := rfl
@[simp] theorem State.setPart_warps (s : State) (n : Nat) (P : Part) : (s.setPart n P).warps = s.warps := rfl
@[simp] theorem State.setPart_groups (s : State) (n : Nat) (P : Part) : (s.setPart n P).groups = s.groups := rfl
@[simp] theorem State.setPart_grids (s : State) (n : Nat) (P : Part) : (s.setPart n P).grids = s.grids := rfl
@[simp] theorem State.setPart_ctxs (s : State) (n : Nat) (P : Part) : (s.setPart n P).ctxs = s.ctxs := rfl
@[simp] theorem State.setPart_kernels (s : State) (n : Nat) (P : Part) : (s.setPart n P).kernels = s.kernels := rfl
@[simp] theorem State.setPart_partst (s : State) (n : Nat) (P : Part) : (s.setPart n P).partst = s.partst := rfl
@[simp] theorem State.setPart_acc (s : State) (n : Nat) (P : Part) : (s.setPart n P).acc = s.acc := rfl
@[simp] theorem State.setPart_lows (s : State) (n : Nat) (P : Part) : (s.setPart n P).lows = s.lows := rfl
@[simp] theorem State.setPart_mboxes (s : State) (n : Nat) (P : Part) : (s.setPart n P).mboxes = s.mboxes := rfl
@[simp] theorem State.setPart_peers (s : State) (n : Nat) (P : Part) : (s.setPart n P).peers = s.peers := rfl
@[simp] theorem State.setPart_foffer (s : State) (n : Nat) (P : Part) : (s.setPart n P).foffer = s.foffer := rfl
@[simp] theorem State.setPart_fenable (s : State) (n : Nat) (P : Part) : (s.setPart n P).fenable = s.fenable := rfl
@[simp] theorem State.setPart_flatch (s : State) (n : Nat) (P : Part) : (s.setPart n P).flatch = s.flatch := rfl
@[simp] theorem State.setPart_started (s : State) (n : Nat) (P : Part) : (s.setPart n P).started = s.started := rfl
@[simp] theorem State.setPart_copies (s : State) (n : Nat) (P : Part) : (s.setPart n P).copies = s.copies := rfl
@[simp] theorem State.setPart_engines (s : State) (n : Nat) (P : Part) : (s.setPart n P).engines = s.engines := rfl
@[simp] theorem State.setPart_remotes (s : State) (n : Nat) (P : Part) : (s.setPart n P).remotes = s.remotes := rfl
@[simp] theorem State.setPart_hostHeld (s : State) (n : Nat) (P : Part) : (s.setPart n P).hostHeld = s.hostHeld := rfl
@[simp] theorem State.setPart_frames (s : State) (n : Nat) (P : Part) : (s.setPart n P).frames = s.frames := rfl
@[simp] theorem State.setPart_tagSeq (s : State) (n : Nat) (P : Part) : (s.setPart n P).tagSeq = s.tagSeq := rfl
@[simp] theorem State.setPart_sampled (s : State) (n : Nat) (P : Part) : (s.setPart n P).sampled = s.sampled := rfl
@[simp] theorem State.setPart_links (s : State) (n : Nat) (P : Part) : (s.setPart n P).links = s.links := rfl
@[simp] theorem State.setPart_flows (s : State) (n : Nat) (P : Part) : (s.setPart n P).flows = s.flows := rfl
@[simp] theorem State.setPart_errors (s : State) (n : Nat) (P : Part) : (s.setPart n P).errors = s.errors := rfl
@[simp] theorem State.setPart_counters (s : State) (n : Nat) (P : Part) : (s.setPart n P).counters = s.counters := rfl
@[simp] theorem State.setPart_firmware (s : State) (n : Nat) (P : Part) : (s.setPart n P).firmware = s.firmware := rfl
@[simp] theorem State.setPart_weights (s : State) (n : Nat) (P : Part) : (s.setPart n P).weights = s.weights := rfl
@[simp] theorem State.setPart_heldOut (s : State) (n : Nat) (P : Part) : (s.setPart n P).heldOut = s.heldOut := rfl
@[simp] theorem State.setPart_barred (s : State) (n : Nat) (P : Part) : (s.setPart n P).barred = s.barred := rfl
@[simp] theorem State.setPart_msix (s : State) (n : Nat) (P : Part) : (s.setPart n P).msix = s.msix := rfl
@[simp] theorem State.setPart_irqs (s : State) (n : Nat) (P : Part) : (s.setPart n P).irqs = s.irqs := rfl
@[simp] theorem State.setPart_reported (s : State) (n : Nat) (P : Part) : (s.setPart n P).reported = s.reported := rfl

/-! `Warp.setS` -/

@[simp] theorem Warp.setS_uid (w : Warp) (n : Nat) (x : Word) : (w.setS n x).uid = w.uid := rfl
@[simp] theorem Warp.setS_group (w : Warp) (n : Nat) (x : Word) : (w.setS n x).group = w.group := rfl
@[simp] theorem Warp.setS_role (w : Warp) (n : Nat) (x : Word) : (w.setS n x).role = w.role := rfl
@[simp] theorem Warp.setS_index (w : Warp) (n : Nat) (x : Word) : (w.setS n x).index = w.index := rfl
@[simp] theorem Warp.setS_core (w : Warp) (n : Nat) (x : Word) : (w.setS n x).core = w.core := rfl
@[simp] theorem Warp.setS_slot (w : Warp) (n : Nat) (x : Word) : (w.setS n x).slot = w.slot := rfl
@[simp] theorem Warp.setS_pos (w : Warp) (n : Nat) (x : Word) : (w.setS n x).pos = w.pos := rfl
@[simp] theorem Warp.setS_mode (w : Warp) (n : Nat) (x : Word) : (w.setS n x).mode = w.mode := rfl
@[simp] theorem Warp.setS_started (w : Warp) (n : Nat) (x : Word) : (w.setS n x).started = w.started := rfl
@[simp] theorem Warp.setS_age (w : Warp) (n : Nat) (x : Word) : (w.setS n x).age = w.age := rfl
@[simp] theorem Warp.setS_c (w : Warp) (n : Nat) (x : Word) : (w.setS n x).c = w.c := rfl
@[simp] theorem Warp.setS_k (w : Warp) (n : Nat) (x : Word) : (w.setS n x).k = w.k := rfl
@[simp] theorem Warp.setS_d (w : Warp) (n : Nat) (x : Word) : (w.setS n x).d = w.d := rfl
@[simp] theorem Warp.setS_v (w : Warp) (n : Nat) (x : Word) : (w.setS n x).v = w.v := rfl
@[simp] theorem Warp.setS_budget (w : Warp) (n : Nat) (x : Word) : (w.setS n x).budget = w.budget := rfl
@[simp] theorem Warp.setS_fpflags (w : Warp) (n : Nat) (x : Word) : (w.setS n x).fpflags = w.fpflags := rfl
@[simp] theorem Warp.setS_srctr (w : Warp) (n : Nat) (x : Word) : (w.setS n x).srctr = w.srctr := rfl
@[simp] theorem Warp.setS_mark (w : Warp) (n : Nat) (x : Word) : (w.setS n x).mark = w.mark := rfl
@[simp] theorem Warp.setS_markOld (w : Warp) (n : Nat) (x : Word) : (w.setS n x).markOld = w.markOld := rfl
@[simp] theorem Warp.setS_markAt (w : Warp) (n : Nat) (x : Word) : (w.setS n x).markAt = w.markAt := rfl
@[simp] theorem Warp.setS_slots (w : Warp) (n : Nat) (x : Word) : (w.setS n x).slots = w.slots := rfl
@[simp] theorem Warp.setS_frags (w : Warp) (n : Nat) (x : Word) : (w.setS n x).frags = w.frags := rfl
@[simp] theorem Warp.setS_nextFrag (w : Warp) (n : Nat) (x : Word) : (w.setS n x).nextFrag = w.nextFrag := rfl
@[simp] theorem Warp.setS_wpar (w : Warp) (n : Nat) (x : Word) : (w.setS n x).wpar = w.wpar := rfl
@[simp] theorem Warp.setS_la (w : Warp) (n : Nat) (x : Word) : (w.setS n x).la = w.la := rfl
@[simp] theorem Warp.setS_pending (w : Warp) (n : Nat) (x : Word) : (w.setS n x).pending = w.pending := rfl
@[simp] theorem Warp.setS_locks (w : Warp) (n : Nat) (x : Word) : (w.setS n x).locks = w.locks := rfl
@[simp] theorem Warp.setS_fenced (w : Warp) (n : Nat) (x : Word) : (w.setS n x).fenced = w.fenced := rfl
@[simp] theorem Warp.setS_inflight (w : Warp) (n : Nat) (x : Word) : (w.setS n x).inflight = w.inflight := rfl

/-! `Warp.setPair` -/

@[simp] theorem Warp.setPair_uid (w : Warp) (n : Nat) (x : Dword) : (w.setPair n x).uid = w.uid := rfl
@[simp] theorem Warp.setPair_group (w : Warp) (n : Nat) (x : Dword) : (w.setPair n x).group = w.group := rfl
@[simp] theorem Warp.setPair_role (w : Warp) (n : Nat) (x : Dword) : (w.setPair n x).role = w.role := rfl
@[simp] theorem Warp.setPair_index (w : Warp) (n : Nat) (x : Dword) : (w.setPair n x).index = w.index := rfl
@[simp] theorem Warp.setPair_core (w : Warp) (n : Nat) (x : Dword) : (w.setPair n x).core = w.core := rfl
@[simp] theorem Warp.setPair_slot (w : Warp) (n : Nat) (x : Dword) : (w.setPair n x).slot = w.slot := rfl
@[simp] theorem Warp.setPair_pos (w : Warp) (n : Nat) (x : Dword) : (w.setPair n x).pos = w.pos := rfl
@[simp] theorem Warp.setPair_mode (w : Warp) (n : Nat) (x : Dword) : (w.setPair n x).mode = w.mode := rfl
@[simp] theorem Warp.setPair_started (w : Warp) (n : Nat) (x : Dword) : (w.setPair n x).started = w.started := rfl
@[simp] theorem Warp.setPair_age (w : Warp) (n : Nat) (x : Dword) : (w.setPair n x).age = w.age := rfl
@[simp] theorem Warp.setPair_c (w : Warp) (n : Nat) (x : Dword) : (w.setPair n x).c = w.c := rfl
@[simp] theorem Warp.setPair_k (w : Warp) (n : Nat) (x : Dword) : (w.setPair n x).k = w.k := rfl
@[simp] theorem Warp.setPair_d (w : Warp) (n : Nat) (x : Dword) : (w.setPair n x).d = w.d := rfl
@[simp] theorem Warp.setPair_v (w : Warp) (n : Nat) (x : Dword) : (w.setPair n x).v = w.v := rfl
@[simp] theorem Warp.setPair_budget (w : Warp) (n : Nat) (x : Dword) : (w.setPair n x).budget = w.budget := rfl
@[simp] theorem Warp.setPair_fpflags (w : Warp) (n : Nat) (x : Dword) : (w.setPair n x).fpflags = w.fpflags := rfl
@[simp] theorem Warp.setPair_srctr (w : Warp) (n : Nat) (x : Dword) : (w.setPair n x).srctr = w.srctr := rfl
@[simp] theorem Warp.setPair_mark (w : Warp) (n : Nat) (x : Dword) : (w.setPair n x).mark = w.mark := rfl
@[simp] theorem Warp.setPair_markOld (w : Warp) (n : Nat) (x : Dword) : (w.setPair n x).markOld = w.markOld := rfl
@[simp] theorem Warp.setPair_markAt (w : Warp) (n : Nat) (x : Dword) : (w.setPair n x).markAt = w.markAt := rfl
@[simp] theorem Warp.setPair_slots (w : Warp) (n : Nat) (x : Dword) : (w.setPair n x).slots = w.slots := rfl
@[simp] theorem Warp.setPair_frags (w : Warp) (n : Nat) (x : Dword) : (w.setPair n x).frags = w.frags := rfl
@[simp] theorem Warp.setPair_nextFrag (w : Warp) (n : Nat) (x : Dword) : (w.setPair n x).nextFrag = w.nextFrag := rfl
@[simp] theorem Warp.setPair_wpar (w : Warp) (n : Nat) (x : Dword) : (w.setPair n x).wpar = w.wpar := rfl
@[simp] theorem Warp.setPair_la (w : Warp) (n : Nat) (x : Dword) : (w.setPair n x).la = w.la := rfl
@[simp] theorem Warp.setPair_pending (w : Warp) (n : Nat) (x : Dword) : (w.setPair n x).pending = w.pending := rfl
@[simp] theorem Warp.setPair_locks (w : Warp) (n : Nat) (x : Dword) : (w.setPair n x).locks = w.locks := rfl
@[simp] theorem Warp.setPair_fenced (w : Warp) (n : Nat) (x : Dword) : (w.setPair n x).fenced = w.fenced := rfl
@[simp] theorem Warp.setPair_inflight (w : Warp) (n : Nat) (x : Dword) : (w.setPair n x).inflight = w.inflight := rfl

/-! `Warp.setK` -/

@[simp] theorem Warp.setK_uid (w : Warp) (n : Nat) (x : Word) : (w.setK n x).uid = w.uid := by unfold Warp.setK; split <;> rfl
@[simp] theorem Warp.setK_group (w : Warp) (n : Nat) (x : Word) : (w.setK n x).group = w.group := by unfold Warp.setK; split <;> rfl
@[simp] theorem Warp.setK_role (w : Warp) (n : Nat) (x : Word) : (w.setK n x).role = w.role := by unfold Warp.setK; split <;> rfl
@[simp] theorem Warp.setK_index (w : Warp) (n : Nat) (x : Word) : (w.setK n x).index = w.index := by unfold Warp.setK; split <;> rfl
@[simp] theorem Warp.setK_core (w : Warp) (n : Nat) (x : Word) : (w.setK n x).core = w.core := by unfold Warp.setK; split <;> rfl
@[simp] theorem Warp.setK_slot (w : Warp) (n : Nat) (x : Word) : (w.setK n x).slot = w.slot := by unfold Warp.setK; split <;> rfl
@[simp] theorem Warp.setK_pos (w : Warp) (n : Nat) (x : Word) : (w.setK n x).pos = w.pos := by unfold Warp.setK; split <;> rfl
@[simp] theorem Warp.setK_mode (w : Warp) (n : Nat) (x : Word) : (w.setK n x).mode = w.mode := by unfold Warp.setK; split <;> rfl
@[simp] theorem Warp.setK_started (w : Warp) (n : Nat) (x : Word) : (w.setK n x).started = w.started := by unfold Warp.setK; split <;> rfl
@[simp] theorem Warp.setK_age (w : Warp) (n : Nat) (x : Word) : (w.setK n x).age = w.age := by unfold Warp.setK; split <;> rfl
@[simp] theorem Warp.setK_s (w : Warp) (n : Nat) (x : Word) : (w.setK n x).s = w.s := by unfold Warp.setK; split <;> rfl
@[simp] theorem Warp.setK_c (w : Warp) (n : Nat) (x : Word) : (w.setK n x).c = w.c := by unfold Warp.setK; split <;> rfl
@[simp] theorem Warp.setK_d (w : Warp) (n : Nat) (x : Word) : (w.setK n x).d = w.d := by unfold Warp.setK; split <;> rfl
@[simp] theorem Warp.setK_v (w : Warp) (n : Nat) (x : Word) : (w.setK n x).v = w.v := by unfold Warp.setK; split <;> rfl
@[simp] theorem Warp.setK_budget (w : Warp) (n : Nat) (x : Word) : (w.setK n x).budget = w.budget := by unfold Warp.setK; split <;> rfl
@[simp] theorem Warp.setK_fpflags (w : Warp) (n : Nat) (x : Word) : (w.setK n x).fpflags = w.fpflags := by unfold Warp.setK; split <;> rfl
@[simp] theorem Warp.setK_srctr (w : Warp) (n : Nat) (x : Word) : (w.setK n x).srctr = w.srctr := by unfold Warp.setK; split <;> rfl
@[simp] theorem Warp.setK_mark (w : Warp) (n : Nat) (x : Word) : (w.setK n x).mark = w.mark := by unfold Warp.setK; split <;> rfl
@[simp] theorem Warp.setK_markOld (w : Warp) (n : Nat) (x : Word) : (w.setK n x).markOld = w.markOld := by unfold Warp.setK; split <;> rfl
@[simp] theorem Warp.setK_markAt (w : Warp) (n : Nat) (x : Word) : (w.setK n x).markAt = w.markAt := by unfold Warp.setK; split <;> rfl
@[simp] theorem Warp.setK_slots (w : Warp) (n : Nat) (x : Word) : (w.setK n x).slots = w.slots := by unfold Warp.setK; split <;> rfl
@[simp] theorem Warp.setK_frags (w : Warp) (n : Nat) (x : Word) : (w.setK n x).frags = w.frags := by unfold Warp.setK; split <;> rfl
@[simp] theorem Warp.setK_nextFrag (w : Warp) (n : Nat) (x : Word) : (w.setK n x).nextFrag = w.nextFrag := by unfold Warp.setK; split <;> rfl
@[simp] theorem Warp.setK_wpar (w : Warp) (n : Nat) (x : Word) : (w.setK n x).wpar = w.wpar := by unfold Warp.setK; split <;> rfl
@[simp] theorem Warp.setK_la (w : Warp) (n : Nat) (x : Word) : (w.setK n x).la = w.la := by unfold Warp.setK; split <;> rfl
@[simp] theorem Warp.setK_pending (w : Warp) (n : Nat) (x : Word) : (w.setK n x).pending = w.pending := by unfold Warp.setK; split <;> rfl
@[simp] theorem Warp.setK_locks (w : Warp) (n : Nat) (x : Word) : (w.setK n x).locks = w.locks := by unfold Warp.setK; split <;> rfl
@[simp] theorem Warp.setK_fenced (w : Warp) (n : Nat) (x : Word) : (w.setK n x).fenced = w.fenced := by unfold Warp.setK; split <;> rfl
@[simp] theorem Warp.setK_inflight (w : Warp) (n : Nat) (x : Word) : (w.setK n x).inflight = w.inflight := by unfold Warp.setK; split <;> rfl

/-! `Warp.setC` -/

@[simp] theorem Warp.setC_uid (w : Warp) (n : Nat) (x : Bool) : (w.setC n x).uid = w.uid := rfl
@[simp] theorem Warp.setC_group (w : Warp) (n : Nat) (x : Bool) : (w.setC n x).group = w.group := rfl
@[simp] theorem Warp.setC_role (w : Warp) (n : Nat) (x : Bool) : (w.setC n x).role = w.role := rfl
@[simp] theorem Warp.setC_index (w : Warp) (n : Nat) (x : Bool) : (w.setC n x).index = w.index := rfl
@[simp] theorem Warp.setC_core (w : Warp) (n : Nat) (x : Bool) : (w.setC n x).core = w.core := rfl
@[simp] theorem Warp.setC_slot (w : Warp) (n : Nat) (x : Bool) : (w.setC n x).slot = w.slot := rfl
@[simp] theorem Warp.setC_pos (w : Warp) (n : Nat) (x : Bool) : (w.setC n x).pos = w.pos := rfl
@[simp] theorem Warp.setC_mode (w : Warp) (n : Nat) (x : Bool) : (w.setC n x).mode = w.mode := rfl
@[simp] theorem Warp.setC_started (w : Warp) (n : Nat) (x : Bool) : (w.setC n x).started = w.started := rfl
@[simp] theorem Warp.setC_age (w : Warp) (n : Nat) (x : Bool) : (w.setC n x).age = w.age := rfl
@[simp] theorem Warp.setC_s (w : Warp) (n : Nat) (x : Bool) : (w.setC n x).s = w.s := rfl
@[simp] theorem Warp.setC_k (w : Warp) (n : Nat) (x : Bool) : (w.setC n x).k = w.k := rfl
@[simp] theorem Warp.setC_d (w : Warp) (n : Nat) (x : Bool) : (w.setC n x).d = w.d := rfl
@[simp] theorem Warp.setC_v (w : Warp) (n : Nat) (x : Bool) : (w.setC n x).v = w.v := rfl
@[simp] theorem Warp.setC_budget (w : Warp) (n : Nat) (x : Bool) : (w.setC n x).budget = w.budget := rfl
@[simp] theorem Warp.setC_fpflags (w : Warp) (n : Nat) (x : Bool) : (w.setC n x).fpflags = w.fpflags := rfl
@[simp] theorem Warp.setC_srctr (w : Warp) (n : Nat) (x : Bool) : (w.setC n x).srctr = w.srctr := rfl
@[simp] theorem Warp.setC_mark (w : Warp) (n : Nat) (x : Bool) : (w.setC n x).mark = w.mark := rfl
@[simp] theorem Warp.setC_markOld (w : Warp) (n : Nat) (x : Bool) : (w.setC n x).markOld = w.markOld := rfl
@[simp] theorem Warp.setC_markAt (w : Warp) (n : Nat) (x : Bool) : (w.setC n x).markAt = w.markAt := rfl
@[simp] theorem Warp.setC_slots (w : Warp) (n : Nat) (x : Bool) : (w.setC n x).slots = w.slots := rfl
@[simp] theorem Warp.setC_frags (w : Warp) (n : Nat) (x : Bool) : (w.setC n x).frags = w.frags := rfl
@[simp] theorem Warp.setC_nextFrag (w : Warp) (n : Nat) (x : Bool) : (w.setC n x).nextFrag = w.nextFrag := rfl
@[simp] theorem Warp.setC_wpar (w : Warp) (n : Nat) (x : Bool) : (w.setC n x).wpar = w.wpar := rfl
@[simp] theorem Warp.setC_la (w : Warp) (n : Nat) (x : Bool) : (w.setC n x).la = w.la := rfl
@[simp] theorem Warp.setC_pending (w : Warp) (n : Nat) (x : Bool) : (w.setC n x).pending = w.pending := rfl
@[simp] theorem Warp.setC_locks (w : Warp) (n : Nat) (x : Bool) : (w.setC n x).locks = w.locks := rfl
@[simp] theorem Warp.setC_fenced (w : Warp) (n : Nat) (x : Bool) : (w.setC n x).fenced = w.fenced := rfl
@[simp] theorem Warp.setC_inflight (w : Warp) (n : Nat) (x : Bool) : (w.setC n x).inflight = w.inflight := rfl

/-! `Warp.setD` -/

@[simp] theorem Warp.setD_uid (w : Warp) (n : Nat) (x : BitVec 128) : (w.setD n x).uid = w.uid := rfl
@[simp] theorem Warp.setD_group (w : Warp) (n : Nat) (x : BitVec 128) : (w.setD n x).group = w.group := rfl
@[simp] theorem Warp.setD_role (w : Warp) (n : Nat) (x : BitVec 128) : (w.setD n x).role = w.role := rfl
@[simp] theorem Warp.setD_index (w : Warp) (n : Nat) (x : BitVec 128) : (w.setD n x).index = w.index := rfl
@[simp] theorem Warp.setD_core (w : Warp) (n : Nat) (x : BitVec 128) : (w.setD n x).core = w.core := rfl
@[simp] theorem Warp.setD_slot (w : Warp) (n : Nat) (x : BitVec 128) : (w.setD n x).slot = w.slot := rfl
@[simp] theorem Warp.setD_pos (w : Warp) (n : Nat) (x : BitVec 128) : (w.setD n x).pos = w.pos := rfl
@[simp] theorem Warp.setD_mode (w : Warp) (n : Nat) (x : BitVec 128) : (w.setD n x).mode = w.mode := rfl
@[simp] theorem Warp.setD_started (w : Warp) (n : Nat) (x : BitVec 128) : (w.setD n x).started = w.started := rfl
@[simp] theorem Warp.setD_age (w : Warp) (n : Nat) (x : BitVec 128) : (w.setD n x).age = w.age := rfl
@[simp] theorem Warp.setD_s (w : Warp) (n : Nat) (x : BitVec 128) : (w.setD n x).s = w.s := rfl
@[simp] theorem Warp.setD_c (w : Warp) (n : Nat) (x : BitVec 128) : (w.setD n x).c = w.c := rfl
@[simp] theorem Warp.setD_k (w : Warp) (n : Nat) (x : BitVec 128) : (w.setD n x).k = w.k := rfl
@[simp] theorem Warp.setD_v (w : Warp) (n : Nat) (x : BitVec 128) : (w.setD n x).v = w.v := rfl
@[simp] theorem Warp.setD_budget (w : Warp) (n : Nat) (x : BitVec 128) : (w.setD n x).budget = w.budget := rfl
@[simp] theorem Warp.setD_fpflags (w : Warp) (n : Nat) (x : BitVec 128) : (w.setD n x).fpflags = w.fpflags := rfl
@[simp] theorem Warp.setD_srctr (w : Warp) (n : Nat) (x : BitVec 128) : (w.setD n x).srctr = w.srctr := rfl
@[simp] theorem Warp.setD_mark (w : Warp) (n : Nat) (x : BitVec 128) : (w.setD n x).mark = w.mark := rfl
@[simp] theorem Warp.setD_markOld (w : Warp) (n : Nat) (x : BitVec 128) : (w.setD n x).markOld = w.markOld := rfl
@[simp] theorem Warp.setD_markAt (w : Warp) (n : Nat) (x : BitVec 128) : (w.setD n x).markAt = w.markAt := rfl
@[simp] theorem Warp.setD_slots (w : Warp) (n : Nat) (x : BitVec 128) : (w.setD n x).slots = w.slots := rfl
@[simp] theorem Warp.setD_frags (w : Warp) (n : Nat) (x : BitVec 128) : (w.setD n x).frags = w.frags := rfl
@[simp] theorem Warp.setD_nextFrag (w : Warp) (n : Nat) (x : BitVec 128) : (w.setD n x).nextFrag = w.nextFrag := rfl
@[simp] theorem Warp.setD_wpar (w : Warp) (n : Nat) (x : BitVec 128) : (w.setD n x).wpar = w.wpar := rfl
@[simp] theorem Warp.setD_la (w : Warp) (n : Nat) (x : BitVec 128) : (w.setD n x).la = w.la := rfl
@[simp] theorem Warp.setD_pending (w : Warp) (n : Nat) (x : BitVec 128) : (w.setD n x).pending = w.pending := rfl
@[simp] theorem Warp.setD_locks (w : Warp) (n : Nat) (x : BitVec 128) : (w.setD n x).locks = w.locks := rfl
@[simp] theorem Warp.setD_fenced (w : Warp) (n : Nat) (x : BitVec 128) : (w.setD n x).fenced = w.fenced := rfl
@[simp] theorem Warp.setD_inflight (w : Warp) (n : Nat) (x : BitVec 128) : (w.setD n x).inflight = w.inflight := rfl

/-! `Warp.putV` -/

@[simp] theorem Warp.putV_uid (w : Warp) (n : Nat) (x : Lanes) : (w.putV n x).uid = w.uid := rfl
@[simp] theorem Warp.putV_group (w : Warp) (n : Nat) (x : Lanes) : (w.putV n x).group = w.group := rfl
@[simp] theorem Warp.putV_role (w : Warp) (n : Nat) (x : Lanes) : (w.putV n x).role = w.role := rfl
@[simp] theorem Warp.putV_index (w : Warp) (n : Nat) (x : Lanes) : (w.putV n x).index = w.index := rfl
@[simp] theorem Warp.putV_core (w : Warp) (n : Nat) (x : Lanes) : (w.putV n x).core = w.core := rfl
@[simp] theorem Warp.putV_slot (w : Warp) (n : Nat) (x : Lanes) : (w.putV n x).slot = w.slot := rfl
@[simp] theorem Warp.putV_pos (w : Warp) (n : Nat) (x : Lanes) : (w.putV n x).pos = w.pos := rfl
@[simp] theorem Warp.putV_mode (w : Warp) (n : Nat) (x : Lanes) : (w.putV n x).mode = w.mode := rfl
@[simp] theorem Warp.putV_started (w : Warp) (n : Nat) (x : Lanes) : (w.putV n x).started = w.started := rfl
@[simp] theorem Warp.putV_age (w : Warp) (n : Nat) (x : Lanes) : (w.putV n x).age = w.age := rfl
@[simp] theorem Warp.putV_s (w : Warp) (n : Nat) (x : Lanes) : (w.putV n x).s = w.s := rfl
@[simp] theorem Warp.putV_c (w : Warp) (n : Nat) (x : Lanes) : (w.putV n x).c = w.c := rfl
@[simp] theorem Warp.putV_k (w : Warp) (n : Nat) (x : Lanes) : (w.putV n x).k = w.k := rfl
@[simp] theorem Warp.putV_d (w : Warp) (n : Nat) (x : Lanes) : (w.putV n x).d = w.d := rfl
@[simp] theorem Warp.putV_budget (w : Warp) (n : Nat) (x : Lanes) : (w.putV n x).budget = w.budget := rfl
@[simp] theorem Warp.putV_fpflags (w : Warp) (n : Nat) (x : Lanes) : (w.putV n x).fpflags = w.fpflags := rfl
@[simp] theorem Warp.putV_srctr (w : Warp) (n : Nat) (x : Lanes) : (w.putV n x).srctr = w.srctr := rfl
@[simp] theorem Warp.putV_mark (w : Warp) (n : Nat) (x : Lanes) : (w.putV n x).mark = w.mark := rfl
@[simp] theorem Warp.putV_markOld (w : Warp) (n : Nat) (x : Lanes) : (w.putV n x).markOld = w.markOld := rfl
@[simp] theorem Warp.putV_markAt (w : Warp) (n : Nat) (x : Lanes) : (w.putV n x).markAt = w.markAt := rfl
@[simp] theorem Warp.putV_slots (w : Warp) (n : Nat) (x : Lanes) : (w.putV n x).slots = w.slots := rfl
@[simp] theorem Warp.putV_frags (w : Warp) (n : Nat) (x : Lanes) : (w.putV n x).frags = w.frags := rfl
@[simp] theorem Warp.putV_nextFrag (w : Warp) (n : Nat) (x : Lanes) : (w.putV n x).nextFrag = w.nextFrag := rfl
@[simp] theorem Warp.putV_wpar (w : Warp) (n : Nat) (x : Lanes) : (w.putV n x).wpar = w.wpar := rfl
@[simp] theorem Warp.putV_la (w : Warp) (n : Nat) (x : Lanes) : (w.putV n x).la = w.la := rfl
@[simp] theorem Warp.putV_pending (w : Warp) (n : Nat) (x : Lanes) : (w.putV n x).pending = w.pending := rfl
@[simp] theorem Warp.putV_locks (w : Warp) (n : Nat) (x : Lanes) : (w.putV n x).locks = w.locks := rfl
@[simp] theorem Warp.putV_fenced (w : Warp) (n : Nat) (x : Lanes) : (w.putV n x).fenced = w.fenced := rfl
@[simp] theorem Warp.putV_inflight (w : Warp) (n : Nat) (x : Lanes) : (w.putV n x).inflight = w.inflight := rfl

/-! `Warp.writeV` -/

@[simp] theorem Warp.writeV_uid (w : Warp) (n : Nat) (m : Word) (x : Lanes) : (w.writeV n m x).uid = w.uid := rfl
@[simp] theorem Warp.writeV_group (w : Warp) (n : Nat) (m : Word) (x : Lanes) : (w.writeV n m x).group = w.group := rfl
@[simp] theorem Warp.writeV_role (w : Warp) (n : Nat) (m : Word) (x : Lanes) : (w.writeV n m x).role = w.role := rfl
@[simp] theorem Warp.writeV_index (w : Warp) (n : Nat) (m : Word) (x : Lanes) : (w.writeV n m x).index = w.index := rfl
@[simp] theorem Warp.writeV_core (w : Warp) (n : Nat) (m : Word) (x : Lanes) : (w.writeV n m x).core = w.core := rfl
@[simp] theorem Warp.writeV_slot (w : Warp) (n : Nat) (m : Word) (x : Lanes) : (w.writeV n m x).slot = w.slot := rfl
@[simp] theorem Warp.writeV_pos (w : Warp) (n : Nat) (m : Word) (x : Lanes) : (w.writeV n m x).pos = w.pos := rfl
@[simp] theorem Warp.writeV_mode (w : Warp) (n : Nat) (m : Word) (x : Lanes) : (w.writeV n m x).mode = w.mode := rfl
@[simp] theorem Warp.writeV_started (w : Warp) (n : Nat) (m : Word) (x : Lanes) : (w.writeV n m x).started = w.started := rfl
@[simp] theorem Warp.writeV_age (w : Warp) (n : Nat) (m : Word) (x : Lanes) : (w.writeV n m x).age = w.age := rfl
@[simp] theorem Warp.writeV_s (w : Warp) (n : Nat) (m : Word) (x : Lanes) : (w.writeV n m x).s = w.s := rfl
@[simp] theorem Warp.writeV_c (w : Warp) (n : Nat) (m : Word) (x : Lanes) : (w.writeV n m x).c = w.c := rfl
@[simp] theorem Warp.writeV_k (w : Warp) (n : Nat) (m : Word) (x : Lanes) : (w.writeV n m x).k = w.k := rfl
@[simp] theorem Warp.writeV_d (w : Warp) (n : Nat) (m : Word) (x : Lanes) : (w.writeV n m x).d = w.d := rfl
@[simp] theorem Warp.writeV_budget (w : Warp) (n : Nat) (m : Word) (x : Lanes) : (w.writeV n m x).budget = w.budget := rfl
@[simp] theorem Warp.writeV_fpflags (w : Warp) (n : Nat) (m : Word) (x : Lanes) : (w.writeV n m x).fpflags = w.fpflags := rfl
@[simp] theorem Warp.writeV_srctr (w : Warp) (n : Nat) (m : Word) (x : Lanes) : (w.writeV n m x).srctr = w.srctr := rfl
@[simp] theorem Warp.writeV_mark (w : Warp) (n : Nat) (m : Word) (x : Lanes) : (w.writeV n m x).mark = w.mark := rfl
@[simp] theorem Warp.writeV_markOld (w : Warp) (n : Nat) (m : Word) (x : Lanes) : (w.writeV n m x).markOld = w.markOld := rfl
@[simp] theorem Warp.writeV_markAt (w : Warp) (n : Nat) (m : Word) (x : Lanes) : (w.writeV n m x).markAt = w.markAt := rfl
@[simp] theorem Warp.writeV_slots (w : Warp) (n : Nat) (m : Word) (x : Lanes) : (w.writeV n m x).slots = w.slots := rfl
@[simp] theorem Warp.writeV_frags (w : Warp) (n : Nat) (m : Word) (x : Lanes) : (w.writeV n m x).frags = w.frags := rfl
@[simp] theorem Warp.writeV_nextFrag (w : Warp) (n : Nat) (m : Word) (x : Lanes) : (w.writeV n m x).nextFrag = w.nextFrag := rfl
@[simp] theorem Warp.writeV_wpar (w : Warp) (n : Nat) (m : Word) (x : Lanes) : (w.writeV n m x).wpar = w.wpar := rfl
@[simp] theorem Warp.writeV_la (w : Warp) (n : Nat) (m : Word) (x : Lanes) : (w.writeV n m x).la = w.la := rfl
@[simp] theorem Warp.writeV_pending (w : Warp) (n : Nat) (m : Word) (x : Lanes) : (w.writeV n m x).pending = w.pending := rfl
@[simp] theorem Warp.writeV_locks (w : Warp) (n : Nat) (m : Word) (x : Lanes) : (w.writeV n m x).locks = w.locks := rfl
@[simp] theorem Warp.writeV_fenced (w : Warp) (n : Nat) (m : Word) (x : Lanes) : (w.writeV n m x).fenced = w.fenced := rfl
@[simp] theorem Warp.writeV_inflight (w : Warp) (n : Nat) (m : Word) (x : Lanes) : (w.writeV n m x).inflight = w.inflight := rfl

/-! `Warp.unmapV` -/

@[simp] theorem Warp.unmapV_uid (w : Warp) (n : Nat) : (w.unmapV n).uid = w.uid := rfl
@[simp] theorem Warp.unmapV_group (w : Warp) (n : Nat) : (w.unmapV n).group = w.group := rfl
@[simp] theorem Warp.unmapV_role (w : Warp) (n : Nat) : (w.unmapV n).role = w.role := rfl
@[simp] theorem Warp.unmapV_index (w : Warp) (n : Nat) : (w.unmapV n).index = w.index := rfl
@[simp] theorem Warp.unmapV_core (w : Warp) (n : Nat) : (w.unmapV n).core = w.core := rfl
@[simp] theorem Warp.unmapV_slot (w : Warp) (n : Nat) : (w.unmapV n).slot = w.slot := rfl
@[simp] theorem Warp.unmapV_pos (w : Warp) (n : Nat) : (w.unmapV n).pos = w.pos := rfl
@[simp] theorem Warp.unmapV_mode (w : Warp) (n : Nat) : (w.unmapV n).mode = w.mode := rfl
@[simp] theorem Warp.unmapV_started (w : Warp) (n : Nat) : (w.unmapV n).started = w.started := rfl
@[simp] theorem Warp.unmapV_age (w : Warp) (n : Nat) : (w.unmapV n).age = w.age := rfl
@[simp] theorem Warp.unmapV_s (w : Warp) (n : Nat) : (w.unmapV n).s = w.s := rfl
@[simp] theorem Warp.unmapV_c (w : Warp) (n : Nat) : (w.unmapV n).c = w.c := rfl
@[simp] theorem Warp.unmapV_k (w : Warp) (n : Nat) : (w.unmapV n).k = w.k := rfl
@[simp] theorem Warp.unmapV_d (w : Warp) (n : Nat) : (w.unmapV n).d = w.d := rfl
@[simp] theorem Warp.unmapV_budget (w : Warp) (n : Nat) : (w.unmapV n).budget = w.budget := rfl
@[simp] theorem Warp.unmapV_fpflags (w : Warp) (n : Nat) : (w.unmapV n).fpflags = w.fpflags := rfl
@[simp] theorem Warp.unmapV_srctr (w : Warp) (n : Nat) : (w.unmapV n).srctr = w.srctr := rfl
@[simp] theorem Warp.unmapV_mark (w : Warp) (n : Nat) : (w.unmapV n).mark = w.mark := rfl
@[simp] theorem Warp.unmapV_markOld (w : Warp) (n : Nat) : (w.unmapV n).markOld = w.markOld := rfl
@[simp] theorem Warp.unmapV_markAt (w : Warp) (n : Nat) : (w.unmapV n).markAt = w.markAt := rfl
@[simp] theorem Warp.unmapV_slots (w : Warp) (n : Nat) : (w.unmapV n).slots = w.slots := rfl
@[simp] theorem Warp.unmapV_frags (w : Warp) (n : Nat) : (w.unmapV n).frags = w.frags := rfl
@[simp] theorem Warp.unmapV_nextFrag (w : Warp) (n : Nat) : (w.unmapV n).nextFrag = w.nextFrag := rfl
@[simp] theorem Warp.unmapV_wpar (w : Warp) (n : Nat) : (w.unmapV n).wpar = w.wpar := rfl
@[simp] theorem Warp.unmapV_la (w : Warp) (n : Nat) : (w.unmapV n).la = w.la := rfl
@[simp] theorem Warp.unmapV_pending (w : Warp) (n : Nat) : (w.unmapV n).pending = w.pending := rfl
@[simp] theorem Warp.unmapV_locks (w : Warp) (n : Nat) : (w.unmapV n).locks = w.locks := rfl
@[simp] theorem Warp.unmapV_fenced (w : Warp) (n : Nat) : (w.unmapV n).fenced = w.fenced := rfl
@[simp] theorem Warp.unmapV_inflight (w : Warp) (n : Nat) : (w.unmapV n).inflight = w.inflight := rfl

/-! `Warp.orFlags` -/

@[simp] theorem Warp.orFlags_uid (w : Warp) (x : FpFlags) : (w.orFlags x).uid = w.uid := rfl
@[simp] theorem Warp.orFlags_group (w : Warp) (x : FpFlags) : (w.orFlags x).group = w.group := rfl
@[simp] theorem Warp.orFlags_role (w : Warp) (x : FpFlags) : (w.orFlags x).role = w.role := rfl
@[simp] theorem Warp.orFlags_index (w : Warp) (x : FpFlags) : (w.orFlags x).index = w.index := rfl
@[simp] theorem Warp.orFlags_core (w : Warp) (x : FpFlags) : (w.orFlags x).core = w.core := rfl
@[simp] theorem Warp.orFlags_slot (w : Warp) (x : FpFlags) : (w.orFlags x).slot = w.slot := rfl
@[simp] theorem Warp.orFlags_pos (w : Warp) (x : FpFlags) : (w.orFlags x).pos = w.pos := rfl
@[simp] theorem Warp.orFlags_mode (w : Warp) (x : FpFlags) : (w.orFlags x).mode = w.mode := rfl
@[simp] theorem Warp.orFlags_started (w : Warp) (x : FpFlags) : (w.orFlags x).started = w.started := rfl
@[simp] theorem Warp.orFlags_age (w : Warp) (x : FpFlags) : (w.orFlags x).age = w.age := rfl
@[simp] theorem Warp.orFlags_s (w : Warp) (x : FpFlags) : (w.orFlags x).s = w.s := rfl
@[simp] theorem Warp.orFlags_c (w : Warp) (x : FpFlags) : (w.orFlags x).c = w.c := rfl
@[simp] theorem Warp.orFlags_k (w : Warp) (x : FpFlags) : (w.orFlags x).k = w.k := rfl
@[simp] theorem Warp.orFlags_d (w : Warp) (x : FpFlags) : (w.orFlags x).d = w.d := rfl
@[simp] theorem Warp.orFlags_v (w : Warp) (x : FpFlags) : (w.orFlags x).v = w.v := rfl
@[simp] theorem Warp.orFlags_budget (w : Warp) (x : FpFlags) : (w.orFlags x).budget = w.budget := rfl
@[simp] theorem Warp.orFlags_srctr (w : Warp) (x : FpFlags) : (w.orFlags x).srctr = w.srctr := rfl
@[simp] theorem Warp.orFlags_mark (w : Warp) (x : FpFlags) : (w.orFlags x).mark = w.mark := rfl
@[simp] theorem Warp.orFlags_markOld (w : Warp) (x : FpFlags) : (w.orFlags x).markOld = w.markOld := rfl
@[simp] theorem Warp.orFlags_markAt (w : Warp) (x : FpFlags) : (w.orFlags x).markAt = w.markAt := rfl
@[simp] theorem Warp.orFlags_slots (w : Warp) (x : FpFlags) : (w.orFlags x).slots = w.slots := rfl
@[simp] theorem Warp.orFlags_frags (w : Warp) (x : FpFlags) : (w.orFlags x).frags = w.frags := rfl
@[simp] theorem Warp.orFlags_nextFrag (w : Warp) (x : FpFlags) : (w.orFlags x).nextFrag = w.nextFrag := rfl
@[simp] theorem Warp.orFlags_wpar (w : Warp) (x : FpFlags) : (w.orFlags x).wpar = w.wpar := rfl
@[simp] theorem Warp.orFlags_la (w : Warp) (x : FpFlags) : (w.orFlags x).la = w.la := rfl
@[simp] theorem Warp.orFlags_pending (w : Warp) (x : FpFlags) : (w.orFlags x).pending = w.pending := rfl
@[simp] theorem Warp.orFlags_locks (w : Warp) (x : FpFlags) : (w.orFlags x).locks = w.locks := rfl
@[simp] theorem Warp.orFlags_fenced (w : Warp) (x : FpFlags) : (w.orFlags x).fenced = w.fenced := rfl
@[simp] theorem Warp.orFlags_inflight (w : Warp) (x : FpFlags) : (w.orFlags x).inflight = w.inflight := rfl

/-! `Warp.setFrag` -/

@[simp] theorem Warp.setFrag_uid (w : Warp) (f : Frag) : (w.setFrag f).uid = w.uid := rfl
@[simp] theorem Warp.setFrag_group (w : Warp) (f : Frag) : (w.setFrag f).group = w.group := rfl
@[simp] theorem Warp.setFrag_role (w : Warp) (f : Frag) : (w.setFrag f).role = w.role := rfl
@[simp] theorem Warp.setFrag_index (w : Warp) (f : Frag) : (w.setFrag f).index = w.index := rfl
@[simp] theorem Warp.setFrag_core (w : Warp) (f : Frag) : (w.setFrag f).core = w.core := rfl
@[simp] theorem Warp.setFrag_slot (w : Warp) (f : Frag) : (w.setFrag f).slot = w.slot := rfl
@[simp] theorem Warp.setFrag_pos (w : Warp) (f : Frag) : (w.setFrag f).pos = w.pos := rfl
@[simp] theorem Warp.setFrag_mode (w : Warp) (f : Frag) : (w.setFrag f).mode = w.mode := rfl
@[simp] theorem Warp.setFrag_started (w : Warp) (f : Frag) : (w.setFrag f).started = w.started := rfl
@[simp] theorem Warp.setFrag_age (w : Warp) (f : Frag) : (w.setFrag f).age = w.age := rfl
@[simp] theorem Warp.setFrag_s (w : Warp) (f : Frag) : (w.setFrag f).s = w.s := rfl
@[simp] theorem Warp.setFrag_c (w : Warp) (f : Frag) : (w.setFrag f).c = w.c := rfl
@[simp] theorem Warp.setFrag_k (w : Warp) (f : Frag) : (w.setFrag f).k = w.k := rfl
@[simp] theorem Warp.setFrag_d (w : Warp) (f : Frag) : (w.setFrag f).d = w.d := rfl
@[simp] theorem Warp.setFrag_v (w : Warp) (f : Frag) : (w.setFrag f).v = w.v := rfl
@[simp] theorem Warp.setFrag_budget (w : Warp) (f : Frag) : (w.setFrag f).budget = w.budget := rfl
@[simp] theorem Warp.setFrag_fpflags (w : Warp) (f : Frag) : (w.setFrag f).fpflags = w.fpflags := rfl
@[simp] theorem Warp.setFrag_srctr (w : Warp) (f : Frag) : (w.setFrag f).srctr = w.srctr := rfl
@[simp] theorem Warp.setFrag_mark (w : Warp) (f : Frag) : (w.setFrag f).mark = w.mark := rfl
@[simp] theorem Warp.setFrag_markOld (w : Warp) (f : Frag) : (w.setFrag f).markOld = w.markOld := rfl
@[simp] theorem Warp.setFrag_markAt (w : Warp) (f : Frag) : (w.setFrag f).markAt = w.markAt := rfl
@[simp] theorem Warp.setFrag_slots (w : Warp) (f : Frag) : (w.setFrag f).slots = w.slots := rfl
@[simp] theorem Warp.setFrag_nextFrag (w : Warp) (f : Frag) : (w.setFrag f).nextFrag = w.nextFrag := rfl
@[simp] theorem Warp.setFrag_wpar (w : Warp) (f : Frag) : (w.setFrag f).wpar = w.wpar := rfl
@[simp] theorem Warp.setFrag_la (w : Warp) (f : Frag) : (w.setFrag f).la = w.la := rfl
@[simp] theorem Warp.setFrag_pending (w : Warp) (f : Frag) : (w.setFrag f).pending = w.pending := rfl
@[simp] theorem Warp.setFrag_locks (w : Warp) (f : Frag) : (w.setFrag f).locks = w.locks := rfl
@[simp] theorem Warp.setFrag_fenced (w : Warp) (f : Frag) : (w.setFrag f).fenced = w.fenced := rfl
@[simp] theorem Warp.setFrag_inflight (w : Warp) (f : Frag) : (w.setFrag f).inflight = w.inflight := rfl

/-! `Warp.setSlot` -/

@[simp] theorem Warp.setSlot_uid (w : Warp) (n : Nat) (x : Slot) : (w.setSlot n x).uid = w.uid := rfl
@[simp] theorem Warp.setSlot_group (w : Warp) (n : Nat) (x : Slot) : (w.setSlot n x).group = w.group := rfl
@[simp] theorem Warp.setSlot_role (w : Warp) (n : Nat) (x : Slot) : (w.setSlot n x).role = w.role := rfl
@[simp] theorem Warp.setSlot_index (w : Warp) (n : Nat) (x : Slot) : (w.setSlot n x).index = w.index := rfl
@[simp] theorem Warp.setSlot_core (w : Warp) (n : Nat) (x : Slot) : (w.setSlot n x).core = w.core := rfl
@[simp] theorem Warp.setSlot_slot (w : Warp) (n : Nat) (x : Slot) : (w.setSlot n x).slot = w.slot := rfl
@[simp] theorem Warp.setSlot_pos (w : Warp) (n : Nat) (x : Slot) : (w.setSlot n x).pos = w.pos := rfl
@[simp] theorem Warp.setSlot_mode (w : Warp) (n : Nat) (x : Slot) : (w.setSlot n x).mode = w.mode := rfl
@[simp] theorem Warp.setSlot_started (w : Warp) (n : Nat) (x : Slot) : (w.setSlot n x).started = w.started := rfl
@[simp] theorem Warp.setSlot_age (w : Warp) (n : Nat) (x : Slot) : (w.setSlot n x).age = w.age := rfl
@[simp] theorem Warp.setSlot_s (w : Warp) (n : Nat) (x : Slot) : (w.setSlot n x).s = w.s := rfl
@[simp] theorem Warp.setSlot_c (w : Warp) (n : Nat) (x : Slot) : (w.setSlot n x).c = w.c := rfl
@[simp] theorem Warp.setSlot_k (w : Warp) (n : Nat) (x : Slot) : (w.setSlot n x).k = w.k := rfl
@[simp] theorem Warp.setSlot_d (w : Warp) (n : Nat) (x : Slot) : (w.setSlot n x).d = w.d := rfl
@[simp] theorem Warp.setSlot_v (w : Warp) (n : Nat) (x : Slot) : (w.setSlot n x).v = w.v := rfl
@[simp] theorem Warp.setSlot_budget (w : Warp) (n : Nat) (x : Slot) : (w.setSlot n x).budget = w.budget := rfl
@[simp] theorem Warp.setSlot_fpflags (w : Warp) (n : Nat) (x : Slot) : (w.setSlot n x).fpflags = w.fpflags := rfl
@[simp] theorem Warp.setSlot_srctr (w : Warp) (n : Nat) (x : Slot) : (w.setSlot n x).srctr = w.srctr := rfl
@[simp] theorem Warp.setSlot_mark (w : Warp) (n : Nat) (x : Slot) : (w.setSlot n x).mark = w.mark := rfl
@[simp] theorem Warp.setSlot_markOld (w : Warp) (n : Nat) (x : Slot) : (w.setSlot n x).markOld = w.markOld := rfl
@[simp] theorem Warp.setSlot_markAt (w : Warp) (n : Nat) (x : Slot) : (w.setSlot n x).markAt = w.markAt := rfl
@[simp] theorem Warp.setSlot_frags (w : Warp) (n : Nat) (x : Slot) : (w.setSlot n x).frags = w.frags := rfl
@[simp] theorem Warp.setSlot_nextFrag (w : Warp) (n : Nat) (x : Slot) : (w.setSlot n x).nextFrag = w.nextFrag := rfl
@[simp] theorem Warp.setSlot_wpar (w : Warp) (n : Nat) (x : Slot) : (w.setSlot n x).wpar = w.wpar := rfl
@[simp] theorem Warp.setSlot_la (w : Warp) (n : Nat) (x : Slot) : (w.setSlot n x).la = w.la := rfl
@[simp] theorem Warp.setSlot_pending (w : Warp) (n : Nat) (x : Slot) : (w.setSlot n x).pending = w.pending := rfl
@[simp] theorem Warp.setSlot_locks (w : Warp) (n : Nat) (x : Slot) : (w.setSlot n x).locks = w.locks := rfl
@[simp] theorem Warp.setSlot_fenced (w : Warp) (n : Nat) (x : Slot) : (w.setSlot n x).fenced = w.fenced := rfl
@[simp] theorem Warp.setSlot_inflight (w : Warp) (n : Nat) (x : Slot) : (w.setSlot n x).inflight = w.inflight := rfl

/-! `Frag.atHead` -/

@[simp] theorem Frag.atHead_id (f : Frag)  : (f.atHead).id = f.id := rfl
@[simp] theorem Frag.atHead_record (f : Frag)  : (f.atHead).record = f.record := rfl
@[simp] theorem Frag.atHead_lanes (f : Frag)  : (f.atHead).lanes = f.lanes := rfl
@[simp] theorem Frag.atHead_head (f : Frag)  : (f.atHead).head = f.head := rfl
@[simp] theorem Frag.atHead_skip (f : Frag)  : (f.atHead).skip = f.skip := rfl
@[simp] theorem Frag.atHead_ret (f : Frag)  : (f.atHead).ret = f.ret := rfl
@[simp] theorem Frag.atHead_conv (f : Frag)  : (f.atHead).conv = f.conv := rfl
@[simp] theorem Frag.atHead_stallTill (f : Frag)  : (f.atHead).stallTill = f.stallTill := rfl
@[simp] theorem Frag.atHead_restTill (f : Frag)  : (f.atHead).restTill = f.restTill := rfl
@[simp] theorem Frag.atHead_yielded (f : Frag)  : (f.atHead).yielded = f.yielded := rfl
@[simp] theorem Frag.atHead_passed (f : Frag)  : (f.atHead).passed = f.passed := rfl
@[simp] theorem Frag.atHead_wait (f : Frag)  : (f.atHead).wait = f.wait := rfl
@[simp] theorem Frag.atHead_granted (f : Frag)  : (f.atHead).granted = f.granted := rfl
@[simp] theorem Frag.atHead_denied (f : Frag)  : (f.atHead).denied = f.denied := rfl
@[simp] theorem Frag.atHead_arrived (f : Frag)  : (f.atHead).arrived = f.arrived := rfl

end Sys2Proof.Machine
end

