-- ==== Sys2Proof/Laws/Issue.lean ====
section
/-! SUPPORT. What running an instruction can do, said once: it completes, it takes an exception, or it waits (R39, R49, R167). -/

namespace Sys2Proof.Machine

/-! ### The three ends of an attempt -/

theorem Issue.attempt_ok {I J : Issue} {i : Instr} {body : Body} {d : Done} (hb : I.begin i = .ok J) (hd : body J = .ok d) :
    I.attempt i body = .ok (J, d) := by
  simp [Issue.attempt, hb, hd]

theorem Issue.attempt_error_begin {I : Issue} {i : Instr} {body : Body} {e : Issue × Stop} (hb : I.begin i = .error e) :
    I.attempt i body = .error e := by
  simp [Issue.attempt, hb]

theorem Issue.attempt_error_body {I J : Issue} {i : Instr} {body : Body} {e : Stop} (hb : I.begin i = .ok J)
    (hd : body J = .error e) : I.attempt i body = .error (J, e) := by
  simp [Issue.attempt, hb, hd]

/-- Past every word but `RDEF`, `SKIP` goes on after one word. -/
theorem Issue.over_id {I : Issue} {i : Instr} (h : ∀ c x, i ≠ .rdef c x) : I.over i = I := by
  unfold Issue.over
  split
  · exact absurd rfl (h _ _)
  · rfl

/-- Completion. -/
theorem runInstr_completes {s : State} {I J : Issue} {i : Instr} {body : Body} {d : Done} (hI : s.issuer = some I)
    (hb : (I.over i).begin i = .ok J) (hd : body J = .ok d) : runInstr i body s = .next (J.retire i d) := by
  simp [runInstr, hI, Issue.run, Issue.attempt_ok hb hd]

/-- A fault of the instruction as a whole: the fragment parks, and nothing else of the instruction takes effect. `J` is the issue as far
as it came. -/
theorem runInstr_traps {s : State} {I J : Issue} {i : Instr} {body : Body} {t : Trap} (hI : s.issuer = some I)
    (ha : (I.over i).attempt i body = .error (J, .trap t)) (ht : t.splits (I.over i).warp (I.over i).frag = false) :
    runInstr i body s = { J with st := (I.over i).st }.stopped i (.trap t) := by
  simp [runInstr, hI, Issue.run, ha, ht]

/-- A fault with lanes none never splits. -/
theorem splits_whole {t : Trap} (h : t.lanes = none) (w : Warp) (f : Frag) : t.splits w f = false := by
  simp [Trap.splits, h]

/-- A fault after effects that stay. -/
theorem runInstr_traps_at {s s' : State} {I J : Issue} {i : Instr} {body : Body} {t : Trap} (hI : s.issuer = some I)
    (ha : (I.over i).attempt i body = .error (J, .trapAt s' t)) :
    runInstr i body s = { J with st := (I.over i).st }.stopped i (.trapAt s' t) := by
  simp [runInstr, hI, Issue.run, ha]

/-- A wait. -/
theorem runInstr_waits {s s' : State} {I J : Issue} {i : Instr} {body : Body} {w : Wait} (hI : s.issuer = some I)
    (ha : (I.over i).attempt i body = .error (J, .wait s' w)) :
    runInstr i body s = { J with st := (I.over i).st }.stopped i (.wait s' w) := by
  simp [runInstr, hI, Issue.run, ha]

/-- Every end of an instruction that has an issuer. -/
theorem runInstr_cases {s : State} {I : Issue} {i : Instr} {body : Body} (hI : s.issuer = some I) :
    (∃ J d, (I.over i).begin i = .ok J ∧ body J = .ok d ∧ runInstr i body s = .next (J.retire i d)) ∨
    (∃ J t, (I.over i).attempt i body = .error (J, .trap t) ∧ t.splits (I.over i).warp (I.over i).frag = true) ∨
    (∃ J e, (I.over i).attempt i body = .error (J, e) ∧ runInstr i body s = { J with st := (I.over i).st }.stopped i e) := by
  have stop : ∀ J e, (I.over i).attempt i body = .error (J, e) →
      (∃ J t, (I.over i).attempt i body = .error (J, .trap t) ∧ t.splits (I.over i).warp (I.over i).frag = true) ∨
      (∃ J e, (I.over i).attempt i body = .error (J, e) ∧ runInstr i body s = { J with st := (I.over i).st }.stopped i e) := by
    intro J e ha
    cases e with
    | trap t =>
      cases ht : t.splits (I.over i).warp (I.over i).frag with
      | true => exact .inl ⟨J, t, ha, ht⟩
      | false => exact .inr ⟨J, .trap t, ha, runInstr_traps hI ha ht⟩
    | _ => exact .inr ⟨J, _, ha, by simp [runInstr, hI, Issue.run, ha]⟩
  cases hb : (I.over i).begin i with
  | error e => exact .inr (stop e.1 e.2 (Issue.attempt_error_begin hb))
  | ok J =>
    cases hd : body J with
    | ok d => exact .inl ⟨J, d, rfl, hd, runInstr_completes hI hb hd⟩
    | error e => exact .inr (stop J e (Issue.attempt_error_body hb hd))

/-! ### Beginning -/

/-- The scoreboard changes nothing. -/
theorem Issue.scheduled_ok {I J : Issue} {i : Instr} (h : I.scheduled i = .ok J) : J = I := by
  unfold Issue.scheduled at h
  split at h
  · exact (Except.ok.inj h).symm
  · split at h
    · exact absurd h (by simp)
    · split at h
      · exact absurd h (by simp [wholeTrap])
      · exact (Except.ok.inj h).symm

/-- What `begin` hands on when it succeeds: the checks passed, no register was awaited, a conversion's entries are legal, and the
registers were prepared. -/
theorem Issue.begin_ok {I J : Issue} {i : Instr} (h : I.begin i = .ok J) :
    ∃ K, I.checked i = .ok K ∧ K.scheduled i = .ok K ∧ conversionFault (K.at K.st).ctx i = none ∧ (K.at K.st).prepared i = .ok J := by
  unfold Issue.begin at h
  cases hc : I.checked i with
  | error e => simp [hc] at h
  | ok K =>
    simp only [hc] at h
    cases hs : K.scheduled i with
    | error e => simp [hs] at h
    | ok L =>
      have hL := Issue.scheduled_ok hs
      subst hL
      simp only [hs] at h
      cases hf : conversionFault (L.at L.st).ctx i with
      | some e => simp [hf] at h
      | none =>
        simp only [hf] at h
        cases hp : (L.at L.st).prepared i with
        | error e => simp [hp] at h
        | ok M =>
          simp only [hp] at h
          cases h
          exact ⟨L, rfl, hs, hf, hp⟩

/-- The checks change nothing but the hints. -/
theorem Issue.checked_ok {I K : Issue} {i : Instr} (h : I.checked i = .ok K) :
    ∃ hs, chainHints Hints.none I.frag.chain = .ok hs ∧ acceptance i I.frag hs = none ∧ K = { I with h := hs } := by
  unfold Issue.checked at h
  cases hc : chainHints Hints.none I.frag.chain with
  | error w => simp [hc] at h
  | ok hs =>
    simp only [hc] at h
    cases ha : acceptance i I.frag hs with
    | some w => simp [ha] at h
    | none =>
      simp only [ha] at h
      split at h
      · simp at h
      · split at h
        · simp at h
        · simp only [Except.ok.injEq] at h
          exact ⟨hs, rfl, ha, h.symm⟩

/-! ### Retirement -/

@[simp] theorem Issue.occupy_mem (I : Issue) (n : Nat) (s : State) : (I.occupy n s).mem = s.mem := rfl
@[simp] theorem Issue.occupy_warps (I : Issue) (n : Nat) (s : State) : (I.occupy n s).warps = s.warps := rfl
@[simp] theorem Issue.occupy_groups (I : Issue) (n : Nat) (s : State) : (I.occupy n s).groups = s.groups := rfl
@[simp] theorem Issue.occupy_grids (I : Issue) (n : Nat) (s : State) : (I.occupy n s).grids = s.grids := rfl
@[simp] theorem Issue.occupy_ctxs (I : Issue) (n : Nat) (s : State) : (I.occupy n s).ctxs = s.ctxs := rfl

/-- Retirement changes the issuer's warp and its port, and nothing else of what the meaning left; an instruction that had waited holds
no port. -/
theorem Issue.retire_shape (I : Issue) (i : Instr) (d : Done) :
    ∃ ws, I.retire i d = { (if I.latched then d.st else I.occupy (portClocks i) d.st) with warps := ws } := by
  unfold Issue.retire
  simp only
  split
  · exact ⟨_, rfl⟩
  · split
    · exact ⟨_, rfl⟩
    · split
      · exact ⟨_, rfl⟩
      · exact ⟨_, rfl⟩

end Sys2Proof.Machine
end

