-- ==== Sys2Proof/Laws/Exec.lean ====
section
/-! SUPPORT. The instruction set as a whole: every word's instruction runs through `runInstr`, every event has no word, and what one
step is. -/

namespace Sys2Proof.Machine

/-- A hint word (R47). -/
def isHintWord : Instr → Bool
  | .hsch .. => true
  | .himm .. => true
  | .himmx .. => true
  | .hmod .. => true
  | .hpred .. => true
  | .hperm .. => true
  | _ => false

/-- An instruction that has a word and is no hint runs as `runInstr` of some meaning: it begins, and then completes, traps or waits. -/
theorem exec_runs {i : Instr} {w : Word} (h : Sys2Proof.encode i = some w) (hn : isHintWord i = false) :
    ∃ body, ∀ s, exec i s = runInstr i body s := by
  cases i <;> first | (cases h; done) | (cases hn; done) | exact ⟨_, fun _ => rfl⟩

/-- An event of the opcode table has no word. -/
theorem encode_event {i : Instr} (h : i.isEvent = true) : Sys2Proof.encode i = none := by
  cases i <;> first | rfl | cases h

/-! ### Steps -/

theorem step_turn {s : State} {t : Turn} {ts : List Turn} (h : s.agenda = t :: ts) :
    step s = closeTurn (takeTurn t { s with agenda := ts, draws := s.draws + 1 }) := by
  simp [step, h]

theorem step_default {s : State} (h : s.agenda = []) : step s = closeTurn (defaultTurn { s with draws := s.draws + 1 }) := by
  simp [step, h]

/-- A turn closes with a next state exactly when it has one. -/
theorem closeTurn_next {o : Host.Outcome State Fault Refusal} {t : State} :
    closeTurn o = .next t ↔ ∃ u, o = .next u ∧ t = { u.settled with cur := none } := by
  cases o with
  | next u => simp [closeTurn, eq_comm]
  | fault f => simp [closeTurn]
  | refused r => simp [closeTurn]

/-- After every step no fragment issues. -/
theorem step_cur {s t : State} (h : step s = .next t) : t.cur = none := by
  cases hs : s.agenda with
  | nil => rw [step_default hs] at h; obtain ⟨u, -, rfl⟩ := closeTurn_next.mp h; rfl
  | cons a as => rw [step_turn hs] at h; obtain ⟨u, -, rfl⟩ := closeTurn_next.mp h; rfl

end Sys2Proof.Machine
end

