-- ==== Sys2Proof/Laws/Memory.lean ====
section
/-! SUPPORT. The canonical form of memory (R14, R454): every operation that writes memory keeps it. -/

namespace Sys2Proof.Machine

/-! ### The form as two plain facts -/

/-- No listed cell reads as an unlisted one, and the addresses rise. -/
def Canonical (m : List Host.Cell) : Prop := (∀ c ∈ m, c.2 ≠ 0) ∧ m.Pairwise (fun c d => c.1 < d.1)

theorem wf_cons_cons (k : Nat) (b : Byte) (k' : Nat) (b' : Byte) (r : List Host.Cell) :
    Memory.wf ((k, b) :: (k', b') :: r) = (b != 0 && decide (k < k') && Memory.wf ((k', b') :: r)) := rfl

theorem canonical_of_wf : ∀ m : List Host.Cell, Memory.wf m = true → Canonical m
  | [], _ => ⟨by simp, List.Pairwise.nil⟩
  | [(k, b)], h => by
    simp only [Memory.wf, bne_iff_ne, ne_eq] at h
    exact ⟨by simpa using h, by simp⟩
  | (k, b) :: (k', b') :: r, h => by
    rw [wf_cons_cons] at h
    simp only [Bool.and_eq_true, bne_iff_ne, ne_eq, decide_eq_true_eq] at h
    obtain ⟨⟨hb, hk⟩, hr⟩ := h
    have ih := canonical_of_wf ((k', b') :: r) hr
    refine ⟨?_, ?_⟩
    · intro c hc
      rcases List.mem_cons.mp hc with rfl | hc
      · exact hb
      · exact ih.1 c hc
    · refine List.Pairwise.cons ?_ ih.2
      intro c hc
      rcases List.mem_cons.mp hc with rfl | hc
      · exact hk
      · exact Nat.lt_trans hk ((List.pairwise_cons.mp ih.2).1 c hc)

theorem wf_of_canonical : ∀ m : List Host.Cell, Canonical m → Memory.wf m = true
  | [], _ => rfl
  | [(k, b)], h => by
    have := h.1 (k, b) (by simp)
    simpa [Memory.wf] using this
  | (k, b) :: (k', b') :: r, h => by
    have hb := h.1 (k, b) (by simp)
    have hp := List.pairwise_cons.mp h.2
    have hk := hp.1 (k', b') (by simp)
    have ih := wf_of_canonical ((k', b') :: r) ⟨fun c hc => h.1 c (List.mem_cons_of_mem _ hc), hp.2⟩
    rw [wf_cons_cons]
    simp only [Bool.and_eq_true, bne_iff_ne, ne_eq, decide_eq_true_eq]
    exact ⟨⟨hb, hk⟩, ih⟩

theorem wf_iff_canonical (m : List Host.Cell) : Memory.wf m = true ↔ Canonical m :=
  ⟨canonical_of_wf m, wf_of_canonical m⟩

/-! ### Runs of cells -/

theorem Canonical.filter {m : List Host.Cell} (h : Canonical m) (p : Host.Cell → Bool) : Canonical (m.filter p) :=
  ⟨fun c hc => h.1 c (List.mem_filter.mp hc).1, h.2.filter p⟩

/-- Two memories one above the other. -/
theorem Canonical.append {m n : List Host.Cell} (hm : Canonical m) (hn : Canonical n)
    (h : ∀ c ∈ m, ∀ d ∈ n, c.1 < d.1) : Canonical (m ++ n) := by
  refine ⟨?_, List.pairwise_append.mpr ⟨hm.2, hn.2, h⟩⟩
  intro c hc
  rcases List.mem_append.mp hc with hc | hc
  · exact hm.1 c hc
  · exact hn.1 c hc

theorem Canonical.shift {m : List Host.Cell} (h : Canonical m) (f : Nat → Nat)
    (hf : ∀ c ∈ m, ∀ d ∈ m, c.1 < d.1 → f c.1 < f d.1) : Canonical (m.map (fun c => (f c.1, c.2))) := by
  refine ⟨?_, ?_⟩
  · intro c hc
    obtain ⟨d, hd, rfl⟩ := List.mem_map.mp hc
    exact h.1 d hd
  · rw [List.pairwise_map]
    exact h.2.imp_of_mem (fun {c d} hc hd hlt => hf c hc d hd hlt)

/-! ### One byte -/

theorem mem_removeCell (a : Nat) : ∀ (m : List Host.Cell) (c : Host.Cell), c ∈ removeCell a m → c ∈ m ∧ c.1 ≠ a
  | [], c, h => by simp [removeCell] at h
  | (k, b) :: r, c, h => by
    unfold removeCell at h
    split at h
    · exact ⟨List.mem_cons_of_mem _ (mem_removeCell a r c h).1, (mem_removeCell a r c h).2⟩
    · rename_i hk
      rcases List.mem_cons.mp h with rfl | h
      · exact ⟨by simp, hk⟩
      · exact ⟨List.mem_cons_of_mem _ (mem_removeCell a r c h).1, (mem_removeCell a r c h).2⟩

theorem mem_insertCell (a : Nat) (b : Byte) : ∀ (m : List Host.Cell) (c : Host.Cell),
    c ∈ insertCell a b m → c = (a, b) ∨ c ∈ m
  | [], c, h => by simpa [insertCell] using h
  | (k, x) :: r, c, h => by
    unfold insertCell at h
    split at h
    · simpa using h
    · rcases List.mem_cons.mp h with rfl | h
      · exact .inr (by simp)
      · rcases mem_insertCell a b r c h with rfl | h
        · exact .inl rfl
        · exact .inr (List.mem_cons_of_mem _ h)

theorem Canonical.tail {c : Host.Cell} {m : List Host.Cell} (h : Canonical (c :: m)) : Canonical m :=
  ⟨fun d hd => h.1 d (List.mem_cons_of_mem _ hd), (List.pairwise_cons.mp h.2).2⟩

theorem Canonical.removeCell (a : Nat) : ∀ {m : List Host.Cell}, Canonical m → Canonical (removeCell a m)
  | [], h => h
  | (k, b) :: r, h => by
    have ih := Canonical.removeCell a h.tail
    unfold Machine.removeCell
    split
    · exact ih
    · refine ⟨?_, List.Pairwise.cons ?_ ih.2⟩
      · intro c hc
        rcases List.mem_cons.mp hc with rfl | hc
        · exact h.1 (k, b) (by simp)
        · exact ih.1 c hc
      · intro c hc
        exact (List.pairwise_cons.mp h.2).1 c (mem_removeCell a r c hc).1

theorem Canonical.insertCell (a : Nat) (b : Byte) (hb : b ≠ 0) : ∀ {m : List Host.Cell}, Canonical m →
    (∀ c ∈ m, c.1 ≠ a) → Canonical (insertCell a b m)
  | [], _, _ => ⟨by simpa [Machine.insertCell] using hb, by simp [Machine.insertCell]⟩
  | (k, x) :: r, h, ha => by
    have hk : k ≠ a := ha (k, x) (by simp)
    have ih := Canonical.insertCell a b hb h.tail (fun c hc => ha c (List.mem_cons_of_mem _ hc))
    unfold Machine.insertCell
    split
    · rename_i hlt
      refine ⟨?_, List.Pairwise.cons ?_ h.2⟩
      · intro c hc
        rcases List.mem_cons.mp hc with rfl | hc
        · exact hb
        · exact h.1 c hc
      · intro c hc
        rcases List.mem_cons.mp hc with rfl | hc
        · exact hlt
        · exact Nat.lt_trans hlt ((List.pairwise_cons.mp h.2).1 c hc)
    · rename_i hlt
      refine ⟨?_, List.Pairwise.cons ?_ ih.2⟩
      · intro c hc
        rcases List.mem_cons.mp hc with rfl | hc
        · exact h.1 (k, x) (by simp)
        · exact ih.1 c hc
      · intro c hc
        rcases mem_insertCell a b r c hc with rfl | hc
        · show k < a
          omega
        · exact (List.pairwise_cons.mp h.2).1 c hc

/-- A byte written keeps the form. -/
theorem Canonical.memWrite {m : List Host.Cell} (h : Canonical m) (a : Nat) (b : Byte) : Canonical (memWrite m a b) := by
  unfold Machine.memWrite
  split
  · exact h.removeCell a
  · rename_i hb
    exact (h.removeCell a).insertCell a b hb (fun c hc => (mem_removeCell a m c hc).2)

/-! ### Runs of bytes -/

theorem Canonical.memWrites : ∀ (bs : List Byte) {m : List Host.Cell} (_ : Canonical m) (a : Nat), Canonical (memWrites m a bs)
  | [], _, h, _ => h
  | b :: bs, _, h, a => Canonical.memWrites bs (h.memWrite a b) (a + 1)

theorem Canonical.memSetNat {m : List Host.Cell} (h : Canonical m) (a n x : Nat) : Canonical (memSetNat m a n x) :=
  Canonical.memWrites _ h a

theorem mem_cellsOf : ∀ (bs : List Byte) (a : Nat) (c : Host.Cell), c ∈ cellsOf a bs → a ≤ c.1 ∧ c.1 < a + bs.length ∧ c.2 ≠ 0
  | [], _, _, h => by simp [cellsOf] at h
  | b :: bs, a, c, h => by
    have ih := mem_cellsOf bs (a + 1) c
    unfold cellsOf at h
    split at h
    · have := ih h
      simp only [List.length_cons]
      exact ⟨by omega, by omega, this.2.2⟩
    · rename_i hb
      rcases List.mem_cons.mp h with rfl | h
      · simp only [List.length_cons]
        exact ⟨Nat.le_refl _, by omega, hb⟩
      · have := ih h
        simp only [List.length_cons]
        exact ⟨by omega, by omega, this.2.2⟩

theorem canonical_cellsOf : ∀ (bs : List Byte) (a : Nat), Canonical (cellsOf a bs)
  | [], _ => ⟨by simp [cellsOf], by simp [cellsOf]⟩
  | b :: bs, a => by
    have ih := canonical_cellsOf bs (a + 1)
    unfold cellsOf
    split
    · exact ih
    · rename_i hb
      refine ⟨?_, List.Pairwise.cons ?_ ih.2⟩
      · intro c hc
        rcases List.mem_cons.mp hc with rfl | hc
        · exact hb
        · exact ih.1 c hc
      · intro c hc
        have := (mem_cellsOf bs (a + 1) c hc).1
        show a < c.1
        omega

theorem Canonical.memPut {m : List Host.Cell} (h : Canonical m) (a : Nat) (bs : List Byte) : Canonical (memPut m a bs) := by
  unfold Machine.memPut
  have hmid := canonical_cellsOf bs a
  refine ((h.filter _).append hmid ?_).append (h.filter _) ?_
  · intro c hc d hd
    have h1 := of_decide_eq_true (List.mem_filter.mp hc).2
    have h2 := (mem_cellsOf bs a d hd).1
    omega
  · intro c hc d hd
    have h2 := of_decide_eq_true (List.mem_filter.mp hd).2
    rcases List.mem_append.mp hc with hc | hc
    · have h1 := of_decide_eq_true (List.mem_filter.mp hc).2
      omega
    · have h1 := (mem_cellsOf bs a c hc).2.1
      omega

theorem Canonical.memSlice {m : List Host.Cell} (h : Canonical m) (a n : Nat) : Canonical (memSlice m a n) := by
  unfold Machine.memSlice
  refine (h.filter _).shift (fun x => x - a) ?_
  intro c hc d hd hlt
  have h1 := (List.mem_filter.mp hc).2
  have h2 := (List.mem_filter.mp hd).2
  simp only [Bool.and_eq_true, decide_eq_true_eq] at h1 h2
  show c.1 - a < d.1 - a
  omega

theorem Canonical.memSplice {m img : List Host.Cell} (h : Canonical m) (hi : Canonical img) (a n : Nat) :
    Canonical (memSplice m a n img) := by
  unfold Machine.memSplice
  have hmid : Canonical ((img.filter (fun c => decide (c.1 < n))).map (fun c => (a + c.1, c.2))) :=
    (hi.filter _).shift (fun x => a + x) (fun c _ d _ hlt => by show a + c.1 < a + d.1; omega)
  have bound : ∀ c ∈ (img.filter (fun c => decide (c.1 < n))).map (fun c => (a + c.1, c.2)), a ≤ c.1 ∧ c.1 < a + n := by
    intro c hc
    obtain ⟨d, hd, rfl⟩ := List.mem_map.mp hc
    have := of_decide_eq_true (List.mem_filter.mp hd).2
    exact ⟨by show a ≤ a + d.1; omega, by show a + d.1 < a + n; omega⟩
  refine ((h.filter _).append hmid ?_).append (h.filter _) ?_
  · intro c hc d hd
    have h1 := of_decide_eq_true (List.mem_filter.mp hc).2
    have h2 := (bound d hd).1
    omega
  · intro c hc d hd
    have h2 := of_decide_eq_true (List.mem_filter.mp hd).2
    rcases List.mem_append.mp hc with hc | hc
    · have h1 := of_decide_eq_true (List.mem_filter.mp hc).2
      omega
    · have h1 := (bound c hc).2
      omega

/-! ### The same of `Memory.wf` -/

theorem memWrite_wf (m : List Host.Cell) (a : Nat) (b : Byte) (h : Memory.wf m = true) : Memory.wf (memWrite m a b) = true :=
  wf_of_canonical _ ((canonical_of_wf m h).memWrite a b)

theorem memWrites_wf (m : List Host.Cell) (a : Nat) (bs : List Byte) (h : Memory.wf m = true) :
    Memory.wf (memWrites m a bs) = true :=
  wf_of_canonical _ (Canonical.memWrites bs (canonical_of_wf m h) a)

theorem memSetNat_wf (m : List Host.Cell) (a n x : Nat) (h : Memory.wf m = true) : Memory.wf (memSetNat m a n x) = true :=
  memWrites_wf m a _ h

theorem memPut_wf (m : List Host.Cell) (a : Nat) (bs : List Byte) (h : Memory.wf m = true) : Memory.wf (memPut m a bs) = true :=
  wf_of_canonical _ ((canonical_of_wf m h).memPut a bs)

theorem memSlice_wf (m : List Host.Cell) (a n : Nat) (h : Memory.wf m = true) : Memory.wf (memSlice m a n) = true :=
  wf_of_canonical _ ((canonical_of_wf m h).memSlice a n)

theorem memSplice_wf (m img : List Host.Cell) (a n : Nat) (h : Memory.wf m = true) (hi : Memory.wf img = true) :
    Memory.wf (memSplice m a n img) = true :=
  wf_of_canonical _ ((canonical_of_wf m h).memSplice (canonical_of_wf img hi) a n)

theorem reset_mem_wf : Memory.wf State.reset.mem = true := rfl

end Sys2Proof.Machine
end

