-- ==== Sys2Proof/Laws/Messages.lean ====
section
/-! SUPPORT. What sending a message within one step may change: the flows, the permits and the count of fresh numbers, and nothing
else. -/

namespace Sys2Proof.Machine

/-- `t` differs from `s` at most in what a message spends. -/
structure MessageFrame (s t : State) : Prop where
  rest : t = { s with fresh := t.fresh, links := t.links, flows := t.flows }

theorem MessageFrame.refl (s : State) : MessageFrame s s := ⟨rfl⟩

theorem MessageFrame.trans {s t u : State} (h : MessageFrame s t) (k : MessageFrame t u) : MessageFrame s u :=
  ⟨by rw [k.rest, h.rest]⟩

theorem MessageFrame.foldl {α : Type} {f : State → α → State} (h : ∀ s a, MessageFrame s (f s a)) :
    ∀ (l : List α) (s : State), MessageFrame s (l.foldl f s)
  | [], s => .refl s
  | a :: as, s => (h s a).trans (MessageFrame.foldl h as (f s a))

theorem MessageFrame.mem {s t : State} (h : MessageFrame s t) : t.mem = s.mem := by rw [h.rest]
theorem MessageFrame.warps {s t : State} (h : MessageFrame s t) : t.warps = s.warps := by rw [h.rest]
theorem MessageFrame.ctxs {s t : State} (h : MessageFrame s t) : t.ctxs = s.ctxs := by rw [h.rest]
theorem MessageFrame.tlb {s t : State} (h : MessageFrame s t) : t.tlb = s.tlb := by rw [h.rest]

theorem spend_message (s : State) (die cls k n : Nat) : MessageFrame s (s.spend die cls k n) := by
  unfold State.spend
  split <;> exact ⟨rfl⟩

theorem spendBack_message (s : State) (die cls n : Nat) : MessageFrame s (s.spendBack die cls n) := by
  unfold State.spendBack
  split <;> exact ⟨rfl⟩

theorem setFlow_message (s : State) (f : Flow) : MessageFrame s (s.setFlow f) := by
  unfold State.setFlow
  split <;> exact ⟨rfl⟩

theorem sendAs_message (s : State) (here : Bool) (cls : Nat) (x : Sender) (order key : Nat) (data : List Byte) (k : MsgKind) :
    MessageFrame s (s.sendAs here cls x order key data k) := by
  unfold State.sendAs
  exact ((setFlow_message s _).trans (t := { s.setFlow _ with fresh := _ }) ⟨rfl⟩).trans (setFlow_message _ _)

theorem cross_message (s : State) (x : Sender) (cls key : Nat) : MessageFrame s (s.cross x cls key) := by
  unfold State.cross
  dsimp only
  split
  · exact .refl s
  · split
    · exact .refl s
    · exact (MessageFrame.foldl (fun s n => spend_message s _ cls 1 n) _ _).trans (sendAs_message ..)

theorem returns_message (s : State) (die cls key : Nat) : MessageFrame s (s.returns die cls key) := by
  unfold State.returns
  split
  · exact .refl s
  · split
    · exact .refl s
    · exact MessageFrame.foldl (fun s n => spendBack_message s die cls n) _ _

theorem exchange_message (s : State) (x : Sender) (cls key : Nat) : MessageFrame s (s.exchange x cls key) :=
  (cross_message s x cls key).trans (returns_message ..)

/-- Folding an operation that may fail. -/
theorem MessageFrame.foldl_option {α : Type} {f : State → α → Option State} (h : ∀ s a t, f s a = some t → MessageFrame s t) :
    ∀ (l : List α) (s t : State), l.foldl (fun o a => o.bind (fun s => f s a)) (some s) = some t → MessageFrame s t
  | [], s, t, e => by cases e; exact .refl s
  | a :: as, s, t, e => by
    rw [List.foldl_cons, Option.bind_some] at e
    cases hf : f s a with
    | none =>
      rw [hf] at e
      have none : ∀ l : List α, l.foldl (fun o a => o.bind (fun s => f s a)) none = none := by
        intro l
        induction l with
        | nil => rfl
        | cons b l ih => exact ih
      rw [none] at e
      cases e
    | some u =>
      rw [hf] at e
      exact (h s a u hf).trans (MessageFrame.foldl_option h as u t e)

theorem crossReads_message {s t : State} {x : Sender} {keys : List Nat} (h : s.crossReads x keys = some t) : MessageFrame s t := by
  refine MessageFrame.foldl_option (f := fun s key =>
    if s.exchanges (dieOf x.core) 0 key then some (s.exchange x 0 key) else none) ?_ keys s t h
  intro s key t e
  split at e
  · cases e
    exact exchange_message ..
  · cases e

theorem sendWalks_message {s t : State} {a : Agent} {k : Access} {vas : List Nat} (h : s.sendWalks a k vas = .ok t) :
    MessageFrame s t := by
  unfold State.sendWalks at h
  split at h
  · cases h
    exact .refl s
  · dsimp only at h
    split at h
    · rename_i hr
      cases h
      exact crossReads_message hr
    · cases h

theorem headboxReads_message {s t : State} {c : Ctx} {k : Access} {va key : Nat} (h : s.headboxReads c k va key = some t) :
    MessageFrame s t := crossReads_message h

end Sys2Proof.Machine
end

