-- ==== Sys2Proof/Laws/Objects.lean ====
section
/-! SUPPORT. Objects of the state: what is found after one of them is replaced. -/

namespace Sys2Proof.Machine

theorem findKey_replaceBy_self {α : Type} {key : α → Nat} {a : α} : ∀ {l : List α} {b : α}, findKey key (key a) l = some b →
    findKey key (key a) (replaceBy key a l) = some a
  | [], _, h => by simp [findKey] at h
  | c :: cs, b, h => by
    unfold findKey replaceBy at *
    simp only [List.map_cons, List.find?_cons] at *
    by_cases hc : key c = key a
    · simp [hc]
    · have : (key c == key a) = false := by simp [hc]
      simp only [this] at h
      simp only [hc, if_false, this]
      exact findKey_replaceBy_self (l := cs) h

theorem findKey_replaceBy_ne {α : Type} {key : α → Nat} {a : α} {k : Nat} (hk : k ≠ key a) : ∀ l : List α,
    findKey key k (replaceBy key a l) = findKey key k l
  | [] => rfl
  | c :: cs => by
    have ih := findKey_replaceBy_ne (key := key) (a := a) hk cs
    unfold findKey replaceBy at *
    simp only [List.map_cons, List.find?_cons]
    by_cases hc : key c = key a
    · have h1 : (key a == k) = false := by simp [Ne.symm hk]
      have h2 : (key c == k) = false := by rw [hc]; exact h1
      simp [hc, h1, ih]
    · simp only [hc, if_false, ih]

/-- A list in which no element has the key is unchanged. -/
theorem replaceBy_absent {α : Type} {key : α → Nat} {a : α} : ∀ {l : List α}, (∀ b ∈ l, key b ≠ key a) → replaceBy key a l = l
  | [], _ => rfl
  | c :: cs, h => by
    have hc := h c (by simp)
    have := replaceBy_absent (l := cs) (fun b hb => h b (by simp [hb]))
    simp [replaceBy] at this ⊢
    exact ⟨fun h' => absurd h' hc, this⟩

theorem State.warp?_setWarp {s : State} {w v : Warp} (h : s.warp? w.uid = some v) : (s.setWarp w).warp? w.uid = some w :=
  findKey_replaceBy_self h
theorem State.warp?_setWarp_ne {s : State} {w : Warp} {n : Nat} (h : n ≠ w.uid) : (s.setWarp w).warp? n = s.warp? n :=
  findKey_replaceBy_ne h s.warps

theorem Warp.frag?_setFrag {w : Warp} {f g : Frag} (h : w.frag? f.id = some g) : (w.setFrag f).frag? f.id = some f :=
  findKey_replaceBy_self h
theorem Warp.frag?_setFrag_ne {w : Warp} {f : Frag} {n : Nat} (h : n ≠ f.id) : (w.setFrag f).frag? n = w.frag? n :=
  findKey_replaceBy_ne h w.frags

theorem State.group?_setGroup {s : State} {g h : Group} (hg : s.group? g.uid = some h) : (s.setGroup g).group? g.uid = some g :=
  findKey_replaceBy_self hg
theorem State.group?_setGroup_ne {s : State} {g : Group} {n : Nat} (h : n ≠ g.uid) : (s.setGroup g).group? n = s.group? n :=
  findKey_replaceBy_ne h s.groups

theorem State.grid?_setGrid {s : State} {g h : Grid} (hg : s.grid? g.uid = some h) : (s.setGrid g).grid? g.uid = some g :=
  findKey_replaceBy_self hg
theorem State.grid?_setGrid_ne {s : State} {g : Grid} {n : Nat} (h : n ≠ g.uid) : (s.setGrid g).grid? n = s.grid? n :=
  findKey_replaceBy_ne h s.grids

theorem State.copy?_setCopy {s : State} {c d : Copy} (h : s.copy? c.uid = some d) : (s.setCopy c).copy? c.uid = some c :=
  findKey_replaceBy_self h

/-- The object found has the key it was looked up by. -/
theorem findKey_key {α : Type} {key : α → Nat} {k : Nat} {l : List α} {a : α} (h : findKey key k l = some a) : key a = k ∧ a ∈ l := by
  unfold findKey at h
  exact ⟨by simpa using List.find?_some h, List.mem_of_find?_eq_some h⟩

theorem State.warp?_uid {s : State} {n : Nat} {w : Warp} (h : s.warp? n = some w) : w.uid = n ∧ w ∈ s.warps := findKey_key h
theorem State.group?_uid {s : State} {n : Nat} {g : Group} (h : s.group? n = some g) : g.uid = n ∧ g ∈ s.groups := findKey_key h
theorem Warp.frag?_id {w : Warp} {n : Nat} {f : Frag} (h : w.frag? n = some f) : f.id = n ∧ f ∈ w.frags := findKey_key h

theorem State.ctx?_key {s : State} {part slot : Nat} {c : Ctx} (h : s.ctx? part slot = some c) : c.part = part ∧ c.slot = slot ∧ c ∈ s.ctxs := by
  have := List.find?_some h
  simp only [Bool.and_eq_true, beq_iff_eq] at this
  exact ⟨this.1, this.2, List.mem_of_find?_eq_some h⟩

end Sys2Proof.Machine
end

