-- ==== Sys2Proof/Laws/Stores.lean ====
section
/-! SUPPORT. What performing stores, a release and the resolution of an access may change: memory, the store buffers, the flows, the
release tags and the count of fresh numbers, and nothing else; memory keeps its canonical form. -/

namespace Sys2Proof.Machine

/-- `t` differs from `s` at most where stores perform, and its memory is canonical when that of `s` is. -/
structure StoreFrame (s t : State) : Prop where
  rest : t = { s with mem := t.mem, sbuf := t.sbuf, sbufSeq := t.sbufSeq, flows := t.flows, fresh := t.fresh, tags := t.tags }
  wf   : Memory.wf s.mem = true → Memory.wf t.mem = true

theorem StoreFrame.refl (s : State) : StoreFrame s s := ⟨rfl, id⟩

theorem StoreFrame.trans {s t u : State} (h : StoreFrame s t) (k : StoreFrame t u) : StoreFrame s u :=
  ⟨by rw [k.rest, h.rest], k.wf ∘ h.wf⟩

/-! Fields that the frame keeps. -/

theorem StoreFrame.warps {s t : State} (h : StoreFrame s t) : t.warps = s.warps := by rw [h.rest]
theorem StoreFrame.groups {s t : State} (h : StoreFrame s t) : t.groups = s.groups := by rw [h.rest]
theorem StoreFrame.grids {s t : State} (h : StoreFrame s t) : t.grids = s.grids := by rw [h.rest]
theorem StoreFrame.ctxs {s t : State} (h : StoreFrame s t) : t.ctxs = s.ctxs := by rw [h.rest]
theorem StoreFrame.kernels {s t : State} (h : StoreFrame s t) : t.kernels = s.kernels := by rw [h.rest]
theorem StoreFrame.parts {s t : State} (h : StoreFrame s t) : t.parts = s.parts := by rw [h.rest]
theorem StoreFrame.copies {s t : State} (h : StoreFrame s t) : t.copies = s.copies := by rw [h.rest]
theorem StoreFrame.engines {s t : State} (h : StoreFrame s t) : t.engines = s.engines := by rw [h.rest]
theorem StoreFrame.links {s t : State} (h : StoreFrame s t) : t.links = s.links := by rw [h.rest]
theorem StoreFrame.counters {s t : State} (h : StoreFrame s t) : t.counters = s.counters := by rw [h.rest]
theorem StoreFrame.cur {s t : State} (h : StoreFrame s t) : t.cur = s.cur := by rw [h.rest]
theorem StoreFrame.agenda {s t : State} (h : StoreFrame s t) : t.agenda = s.agenda := by rw [h.rest]
theorem StoreFrame.warp? {s t : State} (h : StoreFrame s t) (n : Nat) : t.warp? n = s.warp? n := by rw [h.rest]; rfl
theorem StoreFrame.group? {s t : State} (h : StoreFrame s t) (n : Nat) : t.group? n = s.group? n := by rw [h.rest]; rfl
theorem StoreFrame.ctx? {s t : State} (h : StoreFrame s t) (p n : Nat) : t.ctx? p n = s.ctx? p n := by rw [h.rest]; rfl

theorem StoreFrame.foldl {α : Type} {f : State → α → State} (h : ∀ s a, StoreFrame s (f s a)) :
    ∀ (l : List α) (s : State), StoreFrame s (l.foldl f s)
  | [], s => .refl s
  | a :: as, s => (h s a).trans (StoreFrame.foldl h as (f s a))

/-! ### The operations -/

theorem setFlow_frame (s : State) (f : Flow) : StoreFrame s (s.setFlow f) := by
  unfold State.setFlow
  split <;> exact ⟨rfl, id⟩

theorem buffers_frame (s : State) (b : List StoreEntry) (q : Vector Nat 48) : StoreFrame s { s with sbuf := b, sbufSeq := q } := ⟨rfl, id⟩

theorem fresh_frame (s : State) (n : Nat) : StoreFrame s { s with fresh := n } := ⟨rfl, id⟩

theorem send_frame (s : State) (cls : Nat) (x : Sender) (order key : Nat) (data : List Byte) (k : MsgKind) :
    StoreFrame s (s.send cls x order key data k) := by
  unfold State.send State.sendAs
  exact ((setFlow_frame s _).trans (fresh_frame _ _)).trans (setFlow_frame _ _)

theorem setTag_frame (s : State) (line core scope seq : Nat) : StoreFrame s (s.setTag line core scope seq) := by
  unfold State.setTag
  split <;> exact ⟨rfl, id⟩

theorem writeHome_frame (s : State) (core order key : Nat) (data : List Byte) (rel : Option Nat) :
    StoreFrame s (s.writeHome core order key data rel) := by
  have h : StoreFrame s { s with mem := memWrites s.mem key data } := ⟨rfl, memWrites_wf s.mem key data⟩
  unfold State.writeHome
  cases rel with
  | none => exact h
  | some scope =>
    dsimp only
    split
    · exact h.trans (setTag_frame _ _ _ _ _)
    · exact h

theorem performEntry_frame (s : State) (e : StoreEntry) : StoreFrame s (s.performEntry e) := by
  unfold State.performEntry
  split
  · exact send_frame ..
  · exact writeHome_frame ..

theorem pushEntry_frame (s : State) (e : StoreEntry) : StoreFrame s (s.pushEntry e) := by
  unfold State.pushEntry
  split
  · exact StoreFrame.trans (t := { s with sbuf := s.sbuf.filter (fun f => !(f.core == e.core && f.seq == e.seq)) })
      ⟨rfl, id⟩ (performEntry_frame _ _)
  · exact .refl s

theorem pushDue_frame (s : State) : StoreFrame s s.pushDue := StoreFrame.foldl pushEntry_frame _ _

theorem performWhere_frame (s : State) (p : StoreEntry → Bool) : StoreFrame s (s.performWhere p) :=
  StoreFrame.trans (t := { s with sbuf := markDue p s.sbuf }) ⟨rfl, id⟩ (pushDue_frame _)

theorem drainCore_frame (s : State) (core : Nat) : StoreFrame s (s.drainCore core) := performWhere_frame ..

theorem storeGlobal_frame (s : State) (x : Sender) (scope : Nat) (rel : Option Nat) (key : Nat) (data : List Byte) :
    StoreFrame s (s.storeGlobal x scope rel key data) := by
  unfold State.storeGlobal
  dsimp only
  split
  · exact buffers_frame s _ _
  · exact (buffers_frame s _ _).trans (performWhere_frame _ _)

/-- A release that completes: at core scope nothing happens; at a wider one the core's stores before it perform, and none of them, nor
any access sent before it, is left unperformed, nor unacknowledged at system scope. -/
theorem release_ok {s s' : State} {core scope upto : Nat} (h : s.release core scope upto = .ok s') :
    (scope = 0 ∧ s' = s) ∨ (scope ≠ 0 ∧ s' = s.performWhere (fun e => e.core == core && decide (e.seq < upto)) ∧
      s'.unperformed core upto = false ∧ (scope = 4 → s'.unacknowledged core upto = false)) := by
  unfold State.release at h
  by_cases h0 : scope = 0
  · rw [if_pos h0] at h
    cases h
    exact .inl ⟨h0, rfl⟩
  · rw [if_neg h0] at h
    dsimp only at h
    split at h
    · cases h
    · rename_i hc
      cases h
      simp only [Bool.or_eq_true, Bool.and_eq_true, not_or, not_and, Bool.not_eq_true, beq_iff_eq] at hc
      exact .inr ⟨h0, rfl, hc.1, hc.2⟩

theorem release_frame {s s' : State} {core scope upto : Nat} (h : s.release core scope upto = .ok s') : StoreFrame s s' := by
  rcases release_ok h with ⟨-, rfl⟩ | ⟨-, rfl, -⟩
  · exact .refl _
  · exact performWhere_frame ..

/-- A release of the issuing lanes that completes leaves none of their accesses unperformed (R265). -/
theorem releaseOwn_ok {I : Issue} {s s' : State} (h : I.releaseOwn s = .ok s') :
    StoreFrame s s' ∧ s'.lanesUnperformed I.ref.warp I.active (I.upto s) = false := by
  unfold Issue.releaseOwn at h
  dsimp only at h
  split at h
  · cases h
  · rename_i hc
    cases h
    exact ⟨performWhere_frame .., Bool.eq_false_iff.mpr hc⟩

/-! ### Settling -/

theorem discardDenied_tlb (s : State) (m : Master) (c : Ctx) (k : Access) (va : Nat) :
    ∃ t, s.discardDenied m c k va = { s with tlb := t } := by
  have h : ∀ b : Bool, ∃ t, (if b = true then { s with tlb := s.tlb.filter (fun t => !t.covers c.part c.slot va) } else s) =
      { s with tlb := t } := by
    intro b
    cases b
    · exact ⟨s.tlb, rfl⟩
    · exact ⟨_, rfl⟩
  exact h _

theorem discardAll_tlb (m : Master) (c : Ctx) : ∀ (xs : List (Access × Nat)) (s : State),
    ∃ t, xs.foldl (fun s x => s.discardDenied m c x.1 x.2) s = { s with tlb := t }
  | [], s => ⟨s.tlb, rfl⟩
  | x :: xs, s => by
    obtain ⟨t, ht⟩ := discardDenied_tlb s m c x.1 x.2
    obtain ⟨u, hu⟩ := discardAll_tlb m c xs { s with tlb := t }
    exact ⟨u, by rw [List.foldl_cons, ht, hu]⟩

/-- Discarding denied translations changes the translation caches alone (R241). -/
theorem forget_tlb (s : State) (m : Master) (xs : List (Access × Nat)) : ∃ t, s.forget m xs = { s with tlb := t } := by
  unfold State.forget
  split
  · exact discardAll_tlb m _ xs s
  · exact ⟨s.tlb, rfl⟩

/-- What `settleHomes` demands of an access that resolves; it changes nothing. -/
theorem settleHomes_ok {s s' : State} {a : Agent} {ls : List LaneState} {v : Visit} {reads : Bool}
    (h : s.settleHomes a ls v reads = .ok s') :
    s' = s ∧ s.accessAhead a.frag (laneBytes ls) = false ∧ s.linesWait v ((performLanes ls).map (fun p => p.2.2)) = none ∧
      (reads && anyAway a.die ((performLanes ls).map (fun p => p.2.2)) && !a.granted) = false := by
  unfold State.settleHomes at h
  split at h
  · cases h
  · rename_i ha
    split at h
    · cases h
    · rename_i hl
      split at h
      · cases h
      · rename_i hr
        cases h
        exact ⟨rfl, Bool.eq_false_iff.mpr ha, hl, Bool.eq_false_iff.mpr hr⟩

/-- An access that resolves changes nothing but the translation caches and what the reads of its walks spend: it raises no fault, and
waits for no walk, page, earlier access, line or reply. -/
theorem settle_ok {s s' : State} {a : Agent} {ls : List LaneState} {v : Visit} {write reads : Bool}
    (h : s.settle a ls v write reads = .ok s') :
    (∃ u t, MessageFrame s u ∧ s' = { u with tlb := t }) ∧ anyNowhere ls = false ∧ accessTrap ls = none ∧ stalledWalk ls = none ∧
      (waitLanes ls).isEmpty = true ∧ s'.accessAhead a.frag (laneBytes ls) = false ∧
      s'.linesWait v ((performLanes ls).map (fun p => p.2.2)) = none ∧
      (reads && anyAway a.die ((performLanes ls).map (fun p => p.2.2)) && !a.granted) = false := by
  unfold State.settle at h
  split at h
  · cases h
  · rename_i hn
    split at h
    · cases h
    · cases h
    · rename_i ht hw
      split at h
      · cases h
      · rename_i u hu
        have hm := sendWalks_message hu
        dsimp only at h
        have hf : ∃ t, (if write = true then u.forget a.master ((wantedVas ls).map (fun va => (Access.write, va))) else u) =
            { u with tlb := t } := by
          split
          · exact forget_tlb _ _ _
          · exact ⟨u.tlb, rfl⟩
        obtain ⟨t, ht'⟩ := hf
        rw [ht'] at h
        split at h
        · cases h
        · rename_i hp
          split at h
          · rename_i v' hv
            cases h
            obtain ⟨rfl, ha, hl, hr⟩ := settleHomes_ok hv
            exact ⟨⟨u, t, hm, rfl⟩, Bool.eq_false_iff.mpr hn, ht, hw, by simpa using hp, ha, hl, hr⟩
          · cases h

end Sys2Proof.Machine
end

