-- ==== Sys2Proof/Laws/Records.lean ====
section
/-! SUPPORT. What taking an exception may change: the warp of the faulting fragment, the translation caches, what the performing of
stores changes, memory, the permits and flows of the headbox's messages, the contexts, the discard and held counters and the MSI-X
messages. -/

namespace Sys2Proof.Machine

/-- `t` differs from `s` at most in memory, what a message of the headbox spends, the contexts, the counters and the messages sent,
and its memory is canonical when that of `s` is. -/
structure RecordFrame (s t : State) : Prop where
  rest : t = { s with mem := t.mem, fresh := t.fresh, flows := t.flows, links := t.links, ctxs := t.ctxs, counters := t.counters,
                      msix := t.msix, irqs := t.irqs, tlb := t.tlb }
  wf   : Memory.wf s.mem = true → Memory.wf t.mem = true

theorem RecordFrame.refl (s : State) : RecordFrame s s := ⟨rfl, id⟩

theorem RecordFrame.trans {s t u : State} (h : RecordFrame s t) (k : RecordFrame t u) : RecordFrame s u :=
  ⟨by rw [k.rest, h.rest], k.wf ∘ h.wf⟩

theorem RecordFrame.withMem {s u : State} {m : List Host.Cell} (h : RecordFrame s u) (k : Memory.wf s.mem = true → Memory.wf m = true) :
    RecordFrame s { u with mem := m } := ⟨by rw [h.rest], k⟩

theorem RecordFrame.foldl {α : Type} {f : State → α → State} (h : ∀ s a, RecordFrame s (f s a)) :
    ∀ (l : List α) (s : State), RecordFrame s (l.foldl f s)
  | [], s => .refl s
  | a :: as, s => (h s a).trans (RecordFrame.foldl h as (f s a))

theorem RecordFrame.warps {s t : State} (h : RecordFrame s t) : t.warps = s.warps := by rw [h.rest]
theorem RecordFrame.groups {s t : State} (h : RecordFrame s t) : t.groups = s.groups := by rw [h.rest]
theorem RecordFrame.grids {s t : State} (h : RecordFrame s t) : t.grids = s.grids := by rw [h.rest]
theorem RecordFrame.sbuf {s t : State} (h : RecordFrame s t) : t.sbuf = s.sbuf := by rw [h.rest]
theorem RecordFrame.tags {s t : State} (h : RecordFrame s t) : t.tags = s.tags := by rw [h.rest]
theorem RecordFrame.kernels {s t : State} (h : RecordFrame s t) : t.kernels = s.kernels := by rw [h.rest]
theorem RecordFrame.copies {s t : State} (h : RecordFrame s t) : t.copies = s.copies := by rw [h.rest]
theorem RecordFrame.engines {s t : State} (h : RecordFrame s t) : t.engines = s.engines := by rw [h.rest]
theorem RecordFrame.cur {s t : State} (h : RecordFrame s t) : t.cur = s.cur := by rw [h.rest]
theorem RecordFrame.warp? {s t : State} (h : RecordFrame s t) (n : Nat) : t.warp? n = s.warp? n := by rw [h.rest]; rfl

theorem setCtx_frame (s : State) (c : Ctx) : RecordFrame s (s.setCtx c) := ⟨rfl, id⟩

theorem countHeld_frame (s : State) (n : Nat) : RecordFrame s (s.countHeld n) := ⟨rfl, id⟩

theorem MessageFrame.record {s t : State} (h : MessageFrame s t) : RecordFrame s t := ⟨by rw [h.rest], fun x => by rw [h.mem]; exact x⟩

theorem tlb_frame (s : State) (t : List TlbEntry) : RecordFrame s { s with tlb := t } := ⟨rfl, id⟩

/-- What a headbox's access leaves beside its own bytes. -/
theorem headboxWalk_frame (s : State) (c : Ctx) (k : Access) (va key : Nat) : RecordFrame s (s.headboxWalk c k va key) := by
  have h : RecordFrame s ((s.headboxReads c k va key).getD s) := by
    cases e : s.headboxReads c k va key with
    | none => exact .refl s
    | some t => exact (headboxReads_message e).record
  unfold State.headboxWalk
  dsimp only
  split
  · obtain ⟨t, ht⟩ := discardDenied_tlb ((s.headboxReads c k va key).getD s) c.headbox c k va
    rw [ht]
    exact h.trans (tlb_frame _ t)
  · exact h

theorem headboxWrite_frame (s : State) (c : Ctx) (va key : Nat) (bs : List Byte) : RecordFrame s (s.headboxWrite c va key bs) := by
  have h := (headboxWalk_frame s c .write va key).trans (cross_message _ (Sender.ofDie 0 c.part c.slot) 3 key).record
  exact h.withMem (memWrites_wf s.mem key bs)

theorem interrupt_frame (s : State) (c : Ctx) : RecordFrame s (s.interrupt c) := by
  unfold State.interrupt
  split <;> exact ⟨rfl, id⟩

theorem flushRequests_frame : ∀ (n : Nat) (s : State) (c : Ctx), RecordFrame s (flushRequests n s c).1
  | 0, s, _ => .refl s
  | n + 1, s, c => by
    unfold flushRequests
    split
    · exact .refl s
    · split
      · exact .refl s
      · dsimp only
        split
        · exact .refl s
        · exact (headboxWrite_frame s _ _ _ _).trans (flushRequests_frame n _ _)

theorem flushRequestsOf_frame (s : State) (c : Ctx) : RecordFrame s (s.flushRequestsOf c) :=
  ((flushRequests_frame _ s c).trans (setCtx_frame _ _)).trans (countHeld_frame _ _)

theorem joinFuture_frame {s t : State} {part slot page n src : Nat} {mig expl wr : Bool}
    (h : s.joinFuture part slot page mig expl wr src = some (n, t)) : RecordFrame s t := by
  unfold State.joinFuture at h
  split at h
  · cases h
  · split at h
    · cases h; exact .refl s
    · split at h
      · cases h
      · cases h
        exact (setCtx_frame s _).trans (flushRequestsOf_frame _ _)

/-- The state that an addition to a signal leaves, if it leaves one. -/
def Added.state? : Added → Option State
  | .done s => some s
  | .waits s _ => some s
  | _ => none

theorem addSignal_frame {s t : State} {c : Ctx} {addr n : Nat} (h : (s.addSignal c addr n).state? = some t) : RecordFrame s t := by
  unfold State.addSignal at h
  split at h
  · cases h
    exact headboxWrite_frame ..
  · cases h
  · split at h
    · rename_i hj
      cases h
      exact joinFuture_frame hj
    · cases h
  · cases h

/-- A record's bytes written, and perhaps the message sent. -/
def noted (s : State) (c : Ctx) (va key : Nat) (bs : List Byte) : State :=
  if c.cfg.getLsbD 2 then (s.headboxWrite c va key bs).interrupt c else s.headboxWrite c va key bs

theorem noted_frame (s : State) (c : Ctx) (va key : Nat) (bs : List Byte) : RecordFrame s (noted s c va key bs) := by
  unfold noted
  split
  · exact (headboxWrite_frame s c va key bs).trans (interrupt_frame _ _)
  · exact headboxWrite_frame s c va key bs

/-- What follows the write of a record: its addition to FQSIG, and the records after it. -/
def afterRecord (n : Nat) (s : State) (r : Record) (c : Ctx) : State × Ctx :=
  if c.fqsig = 0 ∨ r.own = true then flushFaults n s c
  else match (s.setCtx c).addSignal c c.fqsig.toNat 1 with
    | .done s => flushFaults n s c
    | .waits s f =>
      let c := (s.ctx? c.part c.slot).getD c
      flushFaults n s { c with adds := c.adds ++ [{ future := some f, addr := c.fqsig, n := 1, what := .fqsig }] }
    | .blocked => flushFaults n s { c with adds := c.adds ++ [{ future := none, addr := c.fqsig, n := 1, what := .fqsig }] }
    | .lost =>
      flushFaults n s { c with
        heldFaults := c.heldFaults ++ [{ eventRecord 4 c.fqsig.toNat 0 0 0 0 0 with seq := c.seq, own := true }],
        live := c.live ++ [Live.plain c.seq 0], seq := c.seq + 1 }

/-- One record, and the rest. -/
theorem flushFaults_succ (n : Nat) (s : State) (c : Ctx) :
    flushFaults (n + 1) s c =
      match c.heldFaults with
      | [] => (s, c)
      | r :: rs =>
        if r.behind.isSome = true ∨ c.fqsize = 0 ∨ c.fqhead - c.fqtail = c.fqsize then (s, c)
        else match s.headboxKey c .write (c.fqbase.toNat + 64 * (c.fqhead.toNat % c.fqsize.toNat)) with
          | none => (s, c)
          | some key => afterRecord n (noted s c (c.fqbase.toNat + 64 * (c.fqhead.toNat % c.fqsize.toNat)) key r.bytes) r
              { c with fqhead := c.fqhead + 1, heldFaults := rs, countedFaults := c.countedFaults - 1 } := rfl

theorem afterRecord_frame {n : Nat} (ih : ∀ (s : State) (c : Ctx), RecordFrame s (flushFaults n s c).1) (s : State) (r : Record) (c : Ctx) :
    RecordFrame s (afterRecord n s r c).1 := by
  unfold afterRecord
  split
  · exact ih _ _
  · split
    · rename_i ha
      exact ((setCtx_frame _ _).trans (addSignal_frame (by rw [ha]; rfl))).trans (ih _ _)
    · rename_i ha
      exact ((setCtx_frame _ _).trans (addSignal_frame (by rw [ha]; rfl))).trans (ih _ _)
    · exact ih _ _
    · exact ih _ _

theorem flushFaults_frame : ∀ (n : Nat) (s : State) (c : Ctx), RecordFrame s (flushFaults n s c).1
  | 0, s, _ => .refl s
  | n + 1, s, c => by
    rw [flushFaults_succ]
    split
    · exact .refl s
    · rename_i r rs _
      split
      · exact .refl s
      · split
        · exact .refl s
        · rename_i key _
          exact (noted_frame s c _ key r.bytes).trans (afterRecord_frame (flushFaults_frame n) _ _ _)

theorem flushFaultsOf_frame (s : State) (c : Ctx) : RecordFrame s (s.flushFaultsOf c) := by
  have h := flushFaults_frame (2 * c.heldFaults.length + 2) s { c with heldFaults := c.heldFaults.map s.behindOver }
  unfold State.flushFaultsOf
  exact (h.trans (setCtx_frame _ _)).trans (countHeld_frame _ _)

theorem postRecord_frame (s : State) (part slot : Nat) (r : Record) (l : Live) : RecordFrame s (s.postRecord part slot r l) := by
  unfold State.postRecord
  split
  · exact .refl s
  · exact (setCtx_frame s _).trans (flushFaultsOf_frame _ _)

/-! ### Taking an exception -/

/-- An exception discards denied translations, changes one warp's fragments, lets the stores of its core perform, and posts its record.
The warp keeps its registers and everything else but its fragments and the number of the next one. -/
theorem raise_shape (s : State) (ref : FragRef) (t : Trap) :
    s.raise ref t = s ∨ ∃ w fs n x u, s.warp? ref.warp = some w ∧
      u = (({ s with tlb := x } : State).setWarp { w with frags := fs, nextFrag := n }).drainCore w.core ∧
      RecordFrame u (s.raise ref t) := by
  unfold State.raise
  split
  · exact .inl rfl
  · rename_i w hw
    split
    · rename_i f g hf hg
      right
      obtain ⟨x, hx⟩ := forget_tlb s { part := g.part, slot := g.ctx, eng := 0, core := w.core } t.stale
      dsimp only
      rw [hx]
      by_cases h : t.splits w f = true
      · simp only [h, if_true]
        exact ⟨w, _, _, x, _, hw, rfl, postRecord_frame ..⟩
      · simp only [h, if_false, Bool.false_eq_true]
        exact ⟨w, _, w.nextFrag, x, _, hw, rfl, postRecord_frame ..⟩
    · exact .inl rfl

/-- Memory stays canonical, and no group, grid or kernel changes. -/
theorem raise_keeps (s : State) (ref : FragRef) (t : Trap) :
    (Memory.wf s.mem = true → Memory.wf (s.raise ref t).mem = true) ∧ (s.raise ref t).groups = s.groups ∧
      (s.raise ref t).grids = s.grids ∧ (s.raise ref t).kernels = s.kernels ∧ (s.raise ref t).cur = s.cur := by
  rcases raise_shape s ref t with h | ⟨w, fs, n, x, u, -, hu, h⟩
  · rw [h]; exact ⟨id, rfl, rfl, rfl, rfl⟩
  · have k := drainCore_frame (({ s with tlb := x } : State).setWarp { w with frags := fs, nextFrag := n }) w.core
    rw [← hu] at k
    exact ⟨fun y => h.wf (k.wf y), by rw [h.groups, k.groups]; rfl, by rw [h.grids, k.grids]; rfl,
      by rw [h.kernels, k.kernels]; rfl, by rw [h.cur, k.cur]; rfl⟩

end Sys2Proof.Machine
end

