-- ==== Sys2Proof/Laws/Registers.lean ====
section
/-! SUPPORT. Registers: what is read after a write, of the same register and of another (R114, R116). -/

namespace Sys2Proof.Machine

/-! ### Lanes and masks -/

theorem lane_perLane (f : Nat → Word) {L : Nat} (h : L < 32) : lane (perLane f) L = f L := by
  simp [lane, perLane, Vector.getD, h]

theorem getLsbD_maskUpTo (p : Nat → Bool) : ∀ (n L : Nat), (maskUpTo p n).getLsbD L = (decide (L < n) && p L)
  | 0, L => by simp [maskUpTo]
  | n + 1, L => by
    rw [maskUpTo, BitVec.getLsbD_cons, getLsbD_maskUpTo p n L]
    by_cases h : L = n
    · subst h; simp
    · have : decide (L < n + 1) = decide (L < n) := decide_eq_decide.mpr (by omega)
      rw [if_neg h, this]

theorem getLsbD_maskOf (p : Nat → Bool) (L : Nat) : (maskOf p).getLsbD L = (decide (L < 32) && p L) := getLsbD_maskUpTo p 32 L

theorem lane_mergeLanes (m : Word) (a b : Lanes) {L : Nat} (h : L < 32) :
    lane (mergeLanes m a b) L = if m.getLsbD L then lane a L else lane b L := lane_perLane _ h

/-! ### Sorted insertion -/

theorem find_insertBy_self {α : Type} (key : α → Nat) (a : α) : ∀ l : List α,
    (insertBy key a l).find? (fun x => key x == key a) = some a
  | [] => by simp [insertBy]
  | b :: bs => by
    unfold insertBy
    split
    · simp
    · rename_i h
      split
      · simp
      · rename_i h'
        have : (key b == key a) = false := by simp; omega
        simp [this, find_insertBy_self key a bs]

theorem find_insertBy_ne {α : Type} (key : α → Nat) (a : α) {k : Nat} (hk : k ≠ key a) : ∀ l : List α,
    (insertBy key a l).find? (fun x => key x == k) = l.find? (fun x => key x == k)
  | [] => by simp [insertBy, Ne.symm hk]
  | b :: bs => by
    unfold insertBy
    split
    · have : (key a == k) = false := by simp [Ne.symm hk]
      simp [this]
    · split
      · rename_i h
        have h1 : (key a == k) = false := by simp [Ne.symm hk]
        have h2 : (key b == k) = false := by rw [← h]; exact h1
        simp [h1, h2]
      · simp only [List.find?_cons]
        split <;> simp_all [find_insertBy_ne key a hk bs]

theorem vector_getD_set_ne {α : Type} {k n m : Nat} (v : Vector α k) (x d : α) (h : m ≠ n) :
    (v.setIfInBounds n x).getD m d = v.getD m d := by
  simp [Vector.getD, Array.getD_eq_getD_getElem?, Ne.symm h]

/-! ### Scalars, conditions, masks, records -/

theorem Warp.getS_setS (w : Warp) {n : Nat} (x : Word) (h : n < 64) : (w.setS n x).getS n = x := by
  simp [Warp.getS, Warp.setS, Vector.getD, h]

theorem Warp.getS_setS_ne (w : Warp) {n m : Nat} (x : Word) (h : m ≠ n) : (w.setS n x).getS m = w.getS m :=
  vector_getD_set_ne w.s x 0 h

theorem Warp.getPair_setPair (w : Warp) {n : Nat} (x : Dword) (h : n + 1 < 64) :
    (w.setPair n x).getS n = lowHalf x ∧ (w.setPair n x).getS (n + 1) = highHalf x := by
  unfold Warp.setPair
  exact ⟨by rw [Warp.getS_setS_ne _ _ (by omega), Warp.getS_setS _ _ (by omega)], Warp.getS_setS _ _ h⟩

/-- `k0` reads all ones and no write changes it (R114). -/
theorem Warp.getK_zero (w : Warp) : w.getK 0 = 0xFFFFFFFF := rfl
theorem Warp.setK_zero (w : Warp) (x : Word) : w.setK 0 x = w := rfl

theorem Warp.getK_setK (w : Warp) {n : Nat} (x : Word) (h0 : n ≠ 0) (h : n < 8) : (w.setK n x).getK n = x := by
  simp [Warp.getK, Warp.setK, Vector.getD, h, h0]

theorem Warp.getK_setK_ne (w : Warp) {n m : Nat} (x : Word) (h : m ≠ n) : (w.setK n x).getK m = w.getK m := by
  unfold Warp.getK Warp.setK
  by_cases h0 : n = 0
  · simp [h0]
  · simp only [h0, if_false]
    split
    · rfl
    · exact vector_getD_set_ne w.k x 0 h

theorem Warp.getC_setC (w : Warp) {n : Nat} (x : Bool) (m : Nat) :
    (w.setC n x).getC m = (decide (m < 8) && (if m = n then x else w.getC m)) := by
  simp [Warp.getC, Warp.setC, getLsbD_maskUpTo]

theorem Warp.getD_setD (w : Warp) {n : Nat} (x : BitVec 128) (h : n < 16) : (w.setD n x).getD n = x := by
  simp [Warp.getD, Warp.setD, Vector.getD, h]

theorem Warp.getD_setD_ne (w : Warp) {n m : Nat} (x : BitVec 128) (h : m ≠ n) : (w.setD n x).getD m = w.getD m :=
  vector_getD_set_ne w.d x 0 h

/-! ### Vector names (R116, R117) -/

theorem Warp.getV_putV (w : Warp) (n : Nat) (x : Lanes) : (w.putV n x).getV n = x := by
  have := find_insertBy_self Prod.fst (n, x) w.v
  simp only at this
  simp [Warp.getV, Warp.putV, this]

theorem Warp.getV_putV_ne (w : Warp) {n m : Nat} (x : Lanes) (h : m ≠ n) : (w.putV n x).getV m = w.getV m := by
  have := find_insertBy_ne Prod.fst (n, x) (k := m) h w.v
  simp [Warp.getV, Warp.putV, this]

/-- A write in the lanes of a mask keeps the other lanes. -/
theorem Warp.lane_writeV (w : Warp) (n : Nat) (m : Word) (x : Lanes) {L : Nat} (h : L < 32) :
    lane ((w.writeV n m x).getV n) L = if m.getLsbD L then lane x L else lane (w.getV n) L := by
  rw [Warp.writeV, Warp.getV_putV, lane_mergeLanes _ _ _ h]

theorem Warp.getV_writeV_ne (w : Warp) {n k : Nat} (m : Word) (x : Lanes) (h : k ≠ n) : (w.writeV n m x).getV k = w.getV k :=
  Warp.getV_putV_ne w _ h

/-- A name that is not mapped reads zero in every lane. -/
theorem Warp.getV_unmapV (w : Warp) (n : Nat) : (w.unmapV n).getV n = zeroLanes := by
  have : (w.v.filter (fun p => p.1 != n)).find? (fun p => p.1 == n) = none := by
    rw [List.find?_eq_none]
    intro p hp
    have := (List.mem_filter.mp hp).2
    simp at this
    simp [this]
  simp [Warp.getV, Warp.unmapV, this]

end Sys2Proof.Machine
end

