-- ==== Sys2Proof/Tests/Slice0.lean ====
section
/-! SUPPORT. The model's own tests. Expected values come from the spec's encodings, tables and worked examples; a witness shows that
the hypotheses of a statement can hold together. -/

namespace Sys2Proof.Tests

open Sys2Proof Sys2Proof.Machine

set_option maxRecDepth 20000
set_option Elab.async false

/-! ### Fixtures -/

/-- The state in which the one warp of `withFetchWord` issues `i`, with hint words before it, and a change made first. -/
def fixture (i : Instr) (hints : List Instr) (change : State → State) : State :=
  let s := State.reset.withFetchWord 32 ((Sys2Proof.encode i).getD 0).toNat
  let s := { s with warps := s.warps.map (fun w => { w with frags := w.frags.map (fun f => { f with chain := hints }) }) }
  (change s).issuing { warp := 0, frag := 0 }

/-- Whether `i` begins in its fixture, with an issue of which `p` holds. -/
def met (i : Instr) (hints : List Instr) (change : State → State) (p : Issue → Bool) : Bool :=
  match (fixture i hints change).issuer with
  | none => false
  | some I =>
    match (I.over i).begin i with
    | .ok J => p J
    | .error _ => false

/-- What a check of `met` shows: a state and an issue that meet the hypotheses. -/
theorem begins_of_met {i : Instr} {hints : List Instr} {change : State → State} {p : Issue → Bool}
    (h : met i hints change p = true) : ∃ s J, Begins i s J ∧ p J = true := by
  unfold met at h
  split at h
  · simp at h
  · rename_i I hI
    split at h
    · rename_i J hJ
      exact ⟨_, J, ⟨I, hI, hJ⟩, h⟩
    · simp at h

/-- Whether `i` begins in the plain fixture. -/
def runs (i : Instr) : Bool := met i [] id (fun _ => true)

/-- A change of the one warp, of its one fragment, of its grid and of its group. -/
def warpDo (f : Warp → Warp) (s : State) : State := { s with warps := s.warps.map f }
def fragDo (f : Frag → Frag) : State → State := warpDo (fun w => { w with frags := w.frags.map f })
def gridDo (f : Grid → Grid) (s : State) : State := { s with grids := s.grids.map f }
def groupDo (f : Group → Group) (s : State) : State := { s with groups := s.groups.map f }
def ctxDo (f : Ctx → Ctx) (s : State) : State := { s with ctxs := s.ctxs.map f }

/-- A kernel's declarations, with the images that a placement writes. -/
def kernelDo (f : KernelDesc → KernelDesc) (s : State) : State :=
  gridDo (fun g => { g with kd := f g.kd }) s

/-- Whether every check of a list holds. -/
def every (l : List Bool) : Bool := l.all id

/-- Whether a result is a value. -/
def isOk {ε α : Type} : Except ε α → Bool
  | .ok _ => true
  | .error _ => false


/-- Whether a result is a state, of which `p` holds. -/
def goesNow (r : Except Stop State) (p : State → Bool) : Bool :=
  match r with
  | .ok s => p s
  | .error _ => false

/-- Whether `i` passes the checks and the scheduling of its fixture, with an issue of which `p` holds. -/
def comesTo (i : Instr) (change : State → State) (p : Issue → Bool) : Bool :=
  match (fixture i [] change).issuer with
  | none => false
  | some I =>
    match I.checked i with
    | .error _ => false
    | .ok K => (match K.scheduled i with | .ok K' => decide (K' = K) | .error _ => false) && p K


/-! ### Decoding: one word of every form, its fields placed as R36, R40 to R46 and the entries of 02_instruction_word lay them out -/

/-- A word of a class and code, its other fields each given by lowest bit and value. -/
def at_ (cls code : Nat) (fields : List (Nat × Nat)) : Word :=
  BitVec.ofNat 32 (cls * 2 ^ 28 + code * 2 ^ 22 + (fields.map (fun f => f.2 * 2 ^ f.1)).sum)

/-- Every word decodes to its instruction, and is the instruction's encoding. -/
def decodesTo (l : List (Word × Instr)) : Bool :=
  l.all (fun p => (match Sys2Proof.decode p.1 with | .ok i => i == p.2 | .error _ => false) && Sys2Proof.encode p.2 == some p.1)

/-- Class 0x0, from code 0. -/
def words_scalar : List (Word × Instr) :=
  [
   (at_ 0x0 0 [(16, 12), (10, 20), (4, 24), (3, 0)], .sadd 12 20 24 0),
   (at_ 0x0 1 [(16, 12), (10, 20), (4, 24), (3, 0), (0, 3)], .saddc 12 20 24 0 3),
   (at_ 0x0 2 [(16, 12), (10, 20), (4, 24), (3, 0)], .ssub 12 20 24 0),
   (at_ 0x0 3 [(16, 12), (10, 20), (4, 24), (3, 0), (0, 3)], .ssubb 12 20 24 0 3),
   (at_ 0x0 4 [(16, 12), (10, 20), (4, 24), (3, 0)], .smul 12 20 24 0),
   (at_ 0x0 5 [(16, 12), (10, 20), (4, 24), (3, 0)], .smulhi 12 20 24 0),
   (at_ 0x0 6 [(16, 12), (10, 20), (4, 24), (3, 0)], .smulhu 12 20 24 0),
   (at_ 0x0 7 [(16, 12), (10, 20), (4, 24), (3, 0)], .smad 12 20 24 0),
   (at_ 0x0 8 [(16, 12), (10, 20), (4, 24), (3, 0)], .sdiv 12 20 24 0),
   (at_ 0x0 9 [(16, 12), (10, 20), (4, 24), (3, 0)], .sdivu 12 20 24 0),
   (at_ 0x0 10 [(16, 12), (10, 20), (4, 24), (3, 0)], .srem 12 20 24 0),
   (at_ 0x0 11 [(16, 12), (10, 20), (4, 24), (3, 0)], .sremu 12 20 24 0),
   (at_ 0x0 12 [(16, 12), (10, 20), (4, 24), (3, 0)], .sand 12 20 24 0),
   (at_ 0x0 13 [(16, 12), (10, 20), (4, 24), (3, 0)], .sor 12 20 24 0),
   (at_ 0x0 14 [(16, 12), (10, 20), (4, 24), (3, 0)], .sxor 12 20 24 0),
   (at_ 0x0 15 [(16, 12), (10, 20), (4, 24), (3, 0)], .sandn 12 20 24 0),
   (at_ 0x0 16 [(16, 12), (10, 20), (4, 24), (3, 0)], .sshl 12 20 24 0),
   (at_ 0x0 17 [(16, 12), (10, 20), (4, 24), (3, 0)], .sshr 12 20 24 0),
   (at_ 0x0 18 [(16, 12), (10, 20), (4, 24), (3, 0)], .ssra 12 20 24 0),
   (at_ 0x0 19 [(16, 12), (10, 20), (4, 24), (3, 0)], .srol 12 20 24 0)] ++
  [
   (at_ 0x0 20 [(16, 12), (10, 20), (4, 24), (3, 0)], .smin 12 20 24 0),
   (at_ 0x0 21 [(16, 12), (10, 20), (4, 24), (3, 0)], .smax 12 20 24 0),
   (at_ 0x0 22 [(16, 12), (10, 20), (4, 24), (3, 0)], .sminu 12 20 24 0),
   (at_ 0x0 23 [(16, 12), (10, 20), (4, 24), (3, 0)], .smaxu 12 20 24 0),
   (at_ 0x0 24 [(19, 2), (15, 3), (9, 20), (3, 24), (2, 0)], .scmp 2 3 20 24 0),
   (at_ 0x0 25 [(16, 12), (10, 20), (4, 24), (3, 0), (0, 3)], .ssel 12 20 24 0 3),
   (at_ 0x0 26 [(16, 12), (10, 20)], .smov 12 20),
   (at_ 0x0 27 [(16, 12), (0, 0x8001)], .smovi 12 0x8001),
   (at_ 0x0 28 [(16, 12), (0, 0xfedc)], .smovhi 12 0xfedc),
   (at_ 0x0 29 [(16, 12), (10, 20)], .sclz 12 20),
   (at_ 0x0 30 [(16, 12), (10, 20)], .spopc 12 20),
   (at_ 0x0 31 [(16, 12), (10, 20), (4, 24), (3, 0)], .sbfe 12 20 24 0),
   (at_ 0x0 32 [(16, 12), (10, 20), (4, 24), (3, 0)], .sbfi 12 20 24 0),
   (at_ 0x0 33 [(16, 12), (10, 20), (4, 24), (3, 0)], .sadd64 12 20 24 0),
   (at_ 0x0 34 [(16, 12), (10, 20), (4, 24), (3, 0)], .ssub64 12 20 24 0),
   (at_ 0x0 35 [(16, 12), (10, 20), (4, 24), (3, 0)], .sshl64 12 20 24 0),
   (at_ 0x0 36 [(16, 12), (10, 20), (4, 24), (3, 0)], .sshr64 12 20 24 0)]

theorem test_decode_scalar : decodesTo words_scalar = true := by decide +kernel

/-- Class 0x1, from code 0. -/
def words_scalar_memory : List (Word × Instr) :=
  [
   (at_ 0x1 0 [(16, 12), (10, 33), (6, 5), (3, 4)], .sld 12 33 5 4),
   (at_ 0x1 1 [(16, 12), (10, 33), (6, 5), (3, 4)], .sst 12 33 5 4),
   (at_ 0x1 2 [(16, 12), (10, 33), (6, 5), (3, 4), (0, 7)], .satom 12 33 5 4 7),
   (at_ 0x1 3 [(16, 12), (10, 33), (6, 5), (3, 4)], .scas 12 33 5 4),
   (at_ 0x1 4 [(16, 12), (0, 19)], .sget 12 19),
   (at_ 0x1 5 [(16, 12), (0, 17)], .ssetx 12 17),
   (at_ 0x1 6 [(16, 6), (10, 33), (6, 5)], .dload 6 33 5),
   (at_ 0x1 7 [(16, 8), (6, 5)], .dmake 8 5),
   (at_ 0x1 8 [(16, 8), (6, 5), (0, 6)], .dset 8 5 6),
   (at_ 0x1 9 [(16, 8), (6, 5)], .dget 8 5),
   (at_ 0x1 10 [(16, 8), (1, 1), (0, 0)], .pgreq 8 1 0),
   (at_ 0x1 11 [], .fence),
   (at_ 0x1 12 [(16, 12), (0, 0xfc)], .sldk 12 0xfc)]

theorem test_decode_scalar_memory : decodesTo words_scalar_memory = true := by decide +kernel

/-- Class 0x2, from code 0. -/
def words_control : List (Word × Instr) :=
  [
   (at_ 0x2 0 [(0, 0x3fffff)], .bra 0x3fffff),
   (at_ 0x2 1 [(19, 6), (18, 1), (0, 0x3ffff)], .brac 6 1 0x3ffff),
   (at_ 0x2 2 [(19, 6), (18, 1), (0, 0x20000)], .brak 6 1 0x20000),
   (at_ 0x2 3 [(19, 6), (18, 1), (0, 7)], .braka 6 1 7),
   (at_ 0x2 4 [(0, 0x200000)], .call 0x200000),
   (at_ 0x2 5 [(16, 8), (0, 0xfffe)], .calli 8 0xfffe),
   (at_ 0x2 6 [], .ret),
   (at_ 0x2 7 [(16, 8), (0, 0x7fff)], .jmpi 8 0x7fff),
   (at_ 0x2 8 [(0, 5)], .cvset 5),
   (at_ 0x2 9 [], .cvwait),
   (at_ 0x2 10 [], .exit),
   (at_ 0x2 11 [], .nop),
   (at_ 0x2 12 [], .yield),
   (at_ 0x2 13 [(16, 8), (0, 0xfffd)], .loop 8 0xfffd)]

theorem test_decode_control : decodesTo words_control = true := by decide +kernel

/-- Class 0x3, from code 0. -/
def words_vector_integer : List (Word × Instr) :=
  [
   (at_ 0x3 0 [(15, 12), (8, 20), (1, 24), (0, 0)], .vadd 12 20 24 0),
   (at_ 0x3 1 [(15, 12), (8, 20), (1, 24), (0, 0)], .vavg 12 20 24 0),
   (at_ 0x3 2 [(15, 12), (8, 20), (1, 24), (0, 0)], .vsub 12 20 24 0),
   (at_ 0x3 3 [(15, 12), (8, 20), (1, 24), (0, 0)], .vmul 12 20 24 0),
   (at_ 0x3 4 [(15, 12), (8, 20), (1, 24), (0, 0)], .vmulhi 12 20 24 0),
   (at_ 0x3 5 [(15, 12), (8, 20), (1, 24), (0, 0)], .vmulhu 12 20 24 0),
   (at_ 0x3 6 [(15, 12), (8, 20), (1, 24), (0, 0)], .vmad 12 20 24 0),
   (at_ 0x3 7 [(15, 12), (8, 20), (1, 24), (0, 0)], .vand 12 20 24 0),
   (at_ 0x3 8 [(15, 12), (8, 20), (1, 24), (0, 0)], .vor 12 20 24 0),
   (at_ 0x3 9 [(15, 12), (8, 20), (1, 24), (0, 0)], .vxor 12 20 24 0),
   (at_ 0x3 10 [(15, 12), (8, 20), (1, 24), (0, 0)], .vandn 12 20 24 0),
   (at_ 0x3 11 [(15, 12), (8, 20), (1, 24), (0, 0)], .vshl 12 20 24 0),
   (at_ 0x3 12 [(15, 12), (8, 20), (1, 24), (0, 0)], .vshr 12 20 24 0),
   (at_ 0x3 13 [(15, 12), (8, 20), (1, 24), (0, 0)], .vsra 12 20 24 0),
   (at_ 0x3 14 [(15, 12), (8, 20), (1, 24), (0, 0)], .vmin 12 20 24 0),
   (at_ 0x3 15 [(15, 12), (8, 20), (1, 24), (0, 0)], .vmax 12 20 24 0),
   (at_ 0x3 16 [(15, 12), (8, 20), (1, 24), (0, 0)], .vminu 12 20 24 0),
   (at_ 0x3 17 [(15, 12), (8, 20), (1, 24), (0, 0)], .vmaxu 12 20 24 0),
   (at_ 0x3 18 [(15, 12), (8, 20), (1, 24), (0, 0)], .vabsd 12 20 24 0),
   (at_ 0x3 19 [(15, 12), (8, 20), (1, 24), (0, 0)], .vsad 12 20 24 0)] ++
  [
   (at_ 0x3 20 [(19, 2), (15, 3), (8, 20), (1, 24), (0, 0)], .vcmp 2 3 20 24 0),
   (at_ 0x3 21 [(15, 12), (8, 20), (1, 24), (0, 0)], .vsel 12 20 24 0),
   (at_ 0x3 22 [(15, 12), (8, 20)], .vmov 12 20),
   (at_ 0x3 23 [(15, 12), (0, 0x4001)], .vmovi 12 0x4001),
   (at_ 0x3 24 [(15, 12), (8, 8)], .vmovs 12 8),
   (at_ 0x3 25 [(15, 12), (8, 20)], .vclz 12 20),
   (at_ 0x3 26 [(15, 12), (8, 20)], .vpopc 12 20),
   (at_ 0x3 27 [(15, 12), (8, 20), (1, 24), (0, 0)], .vbfe 12 20 24 0),
   (at_ 0x3 28 [(15, 12), (8, 20), (1, 24), (0, 0)], .vbfi 12 20 24 0),
   (at_ 0x3 29 [(15, 12), (8, 20), (1, 24), (0, 0)], .vadd64 12 20 24 0),
   (at_ 0x3 30 [(15, 12), (8, 20), (1, 24), (0, 0)], .vsub64 12 20 24 0),
   (at_ 0x3 31 [(15, 12), (0, 1)], .vidx 12 1)]

theorem test_decode_vector_integer : decodesTo words_vector_integer = true := by decide +kernel

/-- Class 0x4, from code 0. -/
def words_vector_float : List (Word × Instr) :=
  [
   (at_ 0x4 0 [(15, 12), (8, 20), (1, 24), (0, 0)], .vfadd 0 12 20 24 0),
   (at_ 0x4 1 [(15, 12), (8, 20), (1, 24), (0, 0)], .vfadd 1 12 20 24 0),
   (at_ 0x4 2 [(15, 12), (8, 20), (1, 24), (0, 0)], .vfadd 2 12 20 24 0),
   (at_ 0x4 3 [(15, 12), (8, 20), (1, 24), (0, 0)], .vfadd 3 12 20 24 0),
   (at_ 0x4 4 [(15, 12), (8, 20), (1, 24), (0, 0)], .vfsub 0 12 20 24 0),
   (at_ 0x4 5 [(15, 12), (8, 20), (1, 24), (0, 0)], .vfsub 1 12 20 24 0),
   (at_ 0x4 6 [(15, 12), (8, 20), (1, 24), (0, 0)], .vfsub 2 12 20 24 0),
   (at_ 0x4 7 [(15, 12), (8, 20), (1, 24), (0, 0)], .vfsub 3 12 20 24 0),
   (at_ 0x4 8 [(15, 12), (8, 20), (1, 24), (0, 0)], .vfmul 0 12 20 24 0),
   (at_ 0x4 9 [(15, 12), (8, 20), (1, 24), (0, 0)], .vfmul 1 12 20 24 0),
   (at_ 0x4 10 [(15, 12), (8, 20), (1, 24), (0, 0)], .vfmul 2 12 20 24 0),
   (at_ 0x4 11 [(15, 12), (8, 20), (1, 24), (0, 0)], .vfmul 3 12 20 24 0),
   (at_ 0x4 12 [(15, 12), (8, 20), (1, 24), (0, 0)], .vfma 0 12 20 24 0),
   (at_ 0x4 13 [(15, 12), (8, 20), (1, 24), (0, 0)], .vfma 1 12 20 24 0),
   (at_ 0x4 14 [(15, 12), (8, 20), (1, 24), (0, 0)], .vfma 2 12 20 24 0),
   (at_ 0x4 15 [(15, 12), (8, 20), (1, 24), (0, 0)], .vfma 3 12 20 24 0),
   (at_ 0x4 16 [(15, 12), (8, 20), (1, 24), (0, 0)], .vfmin 0 12 20 24 0),
   (at_ 0x4 17 [(15, 12), (8, 20), (1, 24), (0, 0)], .vfmin 1 12 20 24 0),
   (at_ 0x4 18 [(15, 12), (8, 20), (1, 24), (0, 0)], .vfmin 2 12 20 24 0),
   (at_ 0x4 19 [(15, 12), (8, 20), (1, 24), (0, 0)], .vfmin 3 12 20 24 0)] ++
  [
   (at_ 0x4 20 [(15, 12), (8, 20), (1, 24), (0, 0)], .vfmax 0 12 20 24 0),
   (at_ 0x4 21 [(15, 12), (8, 20), (1, 24), (0, 0)], .vfmax 1 12 20 24 0),
   (at_ 0x4 22 [(15, 12), (8, 20), (1, 24), (0, 0)], .vfmax 2 12 20 24 0),
   (at_ 0x4 23 [(15, 12), (8, 20), (1, 24), (0, 0)], .vfmax 3 12 20 24 0),
   (at_ 0x4 24 [(19, 2), (15, 11), (8, 20), (1, 24), (0, 0)], .vfcmp 0 2 11 20 24 0),
   (at_ 0x4 25 [(19, 2), (15, 11), (8, 20), (1, 24), (0, 0)], .vfcmp 1 2 11 20 24 0),
   (at_ 0x4 26 [(19, 2), (15, 11), (8, 20), (1, 24), (0, 0)], .vfcmp 2 2 11 20 24 0),
   (at_ 0x4 27 [(19, 2), (15, 11), (8, 20), (1, 24), (0, 0)], .vfcmp 3 2 11 20 24 0),
   (at_ 0x4 28 [(15, 12), (8, 20)], .vfrnd 0 12 20),
   (at_ 0x4 29 [(15, 12), (8, 20)], .vfrnd 1 12 20),
   (at_ 0x4 30 [(15, 12), (8, 20)], .vfrnd 2 12 20),
   (at_ 0x4 31 [(15, 12), (8, 20)], .vfrnd 3 12 20),
   (at_ 0x4 32 [(15, 12), (8, 20)], .vfcls 0 12 20),
   (at_ 0x4 33 [(15, 12), (8, 20)], .vfcls 1 12 20),
   (at_ 0x4 34 [(15, 12), (8, 20)], .vfcls 2 12 20),
   (at_ 0x4 35 [(15, 12), (8, 20)], .vfcls 3 12 20),
   (at_ 0x4 36 [(15, 12), (8, 20)], .vfrcp 12 20),
   (at_ 0x4 40 [(15, 12), (8, 20)], .vfrsq 12 20),
   (at_ 0x4 44 [(15, 12), (8, 20)], .vfsqrt 0 12 20),
   (at_ 0x4 45 [(15, 12), (8, 20)], .vfsqrt 1 12 20)] ++
  [
   (at_ 0x4 48 [(15, 12), (8, 20), (1, 24), (0, 0)], .vfdiv 0 12 20 24 0),
   (at_ 0x4 49 [(15, 12), (8, 20), (1, 24), (0, 0)], .vfdiv 1 12 20 24 0),
   (at_ 0x4 52 [(15, 12), (8, 20)], .vfexp2 12 20),
   (at_ 0x4 56 [(15, 12), (8, 20)], .vflog2 12 20),
   (at_ 0x4 60 [(15, 12), (8, 20), (1, 2)], .vftrig 12 20 2)]

theorem test_decode_vector_float : decodesTo words_vector_float = true := by decide +kernel

/-- Class 0x5, from code 0. -/
def words_vector_memory : List (Word × Instr) :=
  [
   (at_ 0x5 0 [(15, 12), (8, 33), (4, 5), (1, 4), (0, 1)], .vld 12 33 5 4 1),
   (at_ 0x5 1 [(15, 12), (8, 33), (4, 5), (1, 2), (0, 1)], .vldp 12 33 5 2 1),
   (at_ 0x5 2 [(15, 12), (8, 33), (4, 5), (1, 4), (0, 1)], .vst 12 33 5 4 1),
   (at_ 0x5 3 [(15, 12), (8, 20), (5, 4), (0, 31)], .vlds 12 20 4 31),
   (at_ 0x5 4 [(15, 12), (8, 20), (5, 4), (0, 17)], .vsts 12 20 4 17),
   (at_ 0x5 5 [(8, 33), (4, 5), (0, 1)], .vpref 33 5 1)]

theorem test_decode_vector_memory : decodesTo words_vector_memory = true := by decide +kernel

/-- Class 0x6, from code 0. -/
def words_atomic : List (Word × Instr) :=
  [
   (at_ 0x6 0 [(16, 12), (10, 33), (4, 44), (0, 5)], .vatom 0 12 33 44 5),
   (at_ 0x6 1 [(16, 12), (10, 33), (4, 44), (0, 5)], .vatom 1 12 33 44 5),
   (at_ 0x6 2 [(16, 12), (10, 33), (4, 44), (0, 5)], .vatom 2 12 33 44 5),
   (at_ 0x6 3 [(16, 12), (10, 33), (4, 44), (0, 5)], .vatom 3 12 33 44 5),
   (at_ 0x6 4 [(16, 12), (10, 33), (4, 44), (0, 5)], .vatom 4 12 33 44 5),
   (at_ 0x6 5 [(16, 12), (10, 33), (4, 44), (0, 5)], .vatom 5 12 33 44 5),
   (at_ 0x6 6 [(16, 12), (10, 33), (4, 44), (0, 5)], .vatom 6 12 33 44 5),
   (at_ 0x6 7 [(16, 12), (10, 33), (4, 44), (0, 5)], .vatom 7 12 33 44 5),
   (at_ 0x6 8 [(16, 12), (10, 33), (4, 44), (0, 5)], .vatom 8 12 33 44 5),
   (at_ 0x6 9 [(16, 12), (10, 33), (4, 44), (0, 5)], .vatom 9 12 33 44 5),
   (at_ 0x6 10 [(16, 12), (10, 33), (4, 44), (0, 5)], .vatom 10 12 33 44 5),
   (at_ 0x6 11 [(16, 12), (10, 33), (4, 44), (0, 5)], .vatom 11 12 33 44 5),
   (at_ 0x6 12 [(16, 12), (10, 33), (4, 44), (0, 5)], .vatom 12 12 33 44 5),
   (at_ 0x6 13 [(16, 12), (10, 33), (4, 44), (0, 5)], .vatom 13 12 33 44 5),
   (at_ 0x6 14 [(16, 12), (10, 33), (4, 44), (0, 5)], .vatom 14 12 33 44 5),
   (at_ 0x6 15 [(16, 12), (10, 33), (4, 44), (0, 5)], .vcas 12 33 44 5),
   (at_ 0x6 16 [(16, 14), (10, 33), (4, 44), (0, 5)], .vred 14 33 44 5),
   (at_ 0x6 17 [(16, 12), (10, 33), (4, 44), (0, 14)], .vsatom 12 33 44 14),
   (at_ 0x6 18 [(16, 12), (10, 33), (4, 44)], .vscas 12 33 44),
   (at_ 0x6 19 [(15, 99), (8, 33), (5, 4), (0, 9)], .vldl 99 33 9)] ++
  [
   (at_ 0x6 20 [(15, 99), (8, 33), (5, 4), (0, 30)], .vstul 99 33 30)]

theorem test_decode_atomic : decodesTo words_atomic = true := by decide +kernel

/-- Class 0x7, from code 0. -/
def words_crossing : List (Word × Instr) :=
  [
   (at_ 0x7 0 [(15, 12), (8, 20), (1, 24), (0, 0)], .vshfl 12 20 24 0),
   (at_ 0x7 1 [(15, 12), (8, 20), (1, 24)], .vperm 12 20 24),
   (at_ 0x7 2 [(19, 2), (8, 20), (1, 0x64)], .vmatch 2 20 0x64),
   (at_ 0x7 3 [(19, 2), (15, 3), (8, 20), (1, 24), (0, 0)], .vballot 2 3 20 24 0),
   (at_ 0x7 4 [(19, 2), (15, 3), (8, 20), (1, 24), (0, 0)], .vvote 2 3 20 24 0),
   (at_ 0x7 5 [(15, 12), (8, 20), (1, 9)], .vredx 12 20 9),
   (at_ 0x7 6 [(15, 12), (8, 20), (1, 25)], .vscanx 12 20 25),
   (at_ 0x7 7 [(19, 2)], .velect 2),
   (at_ 0x7 8 [(19, 5), (16, 3), (13, 6)], .kand 5 3 6),
   (at_ 0x7 9 [(19, 5), (16, 3), (13, 6)], .kor 5 3 6),
   (at_ 0x7 10 [(19, 5), (16, 3), (13, 6)], .kxor 5 3 6),
   (at_ 0x7 11 [(19, 5), (16, 3)], .knot 5 3),
   (at_ 0x7 12 [(19, 5), (16, 3)], .kmov 5 3),
   (at_ 0x7 13 [(16, 8), (0, 5)], .kcnt 8 5),
   (at_ 0x7 14 [(16, 8), (0, 6)], .kfirst 8 6),
   (at_ 0x7 15 [(16, 8), (0, 7)], .ktos 8 7),
   (at_ 0x7 16 [(16, 8), (0, 1)], .stok 8 1),
   (at_ 0x7 17 [(15, 12), (8, 20), (1, 24)], .vpackb 12 20 24),
   (at_ 0x7 18 [(15, 12), (8, 20), (1, 28)], .vpackn 12 20 28),
   (at_ 0x7 19 [(15, 12), (8, 20), (1, 26)], .vpack6 12 20 26)] ++
  [
   (at_ 0x7 20 [(15, 12), (8, 20), (1, 2)], .vunpk6 12 20 2),
   (at_ 0x7 21 [(15, 12), (8, 20)], .vcmpr 12 20),
   (at_ 0x7 22 [(15, 12), (8, 20)], .vxpnd 12 20)]

theorem test_decode_crossing : decodesTo words_crossing = true := by decide +kernel

/-- Class 0x8, from code 0. -/
def words_tile : List (Word × Instr) :=
  [
   (at_ 0x8 0 [(18, 13), (12, 20), (6, 24), (0, 6)], .tmma 13 20 24 6),
   (at_ 0x8 1 [(18, 13), (12, 20), (6, 24), (0, 1)], .tmmax 13 20 24 1),
   (at_ 0x8 2 [(18, 13)], .tzero 13),
   (at_ 0x8 3 [(18, 13), (12, 20)], .tfill 13 20),
   (at_ 0x8 4 [(18, 13), (12, 20), (6, 24)], .tscale 13 20 24),
   (at_ 0x8 5 [(18, 13), (12, 20), (6, 24)], .tsmx 13 20 24),
   (at_ 0x8 6 [(18, 13), (12, 20), (6, 24)], .tdrain 13 20 24),
   (at_ 0x8 7 [(18, 13), (12, 20)], .tamaxr 13 20),
   (at_ 0x8 8 [(18, 13), (12, 20), (6, 24)], .tsider 13 20 24),
   (at_ 0x8 9 [(18, 13), (12, 20), (6, 24)], .tsidew 13 20 24),
   (at_ 0x8 10 [(18, 13), (12, 20)], .tgang 13 20),
   (at_ 0x8 11 [], .tfence),
   (at_ 0x8 12 [(18, 13)], .twait 13)]

theorem test_decode_tile : decodesTo words_tile = true := by decide +kernel

/-- Class 0x9, from code 0. -/
def words_copy : List (Word × Instr) :=
  [
   (at_ 0x9 0 [(18, 5), (12, 16), (6, 10), (2, 11), (0, 2)], .cpy 5 16 10 11 2),
   (at_ 0x9 1 [(18, 5), (12, 16), (6, 10), (2, 11), (0, 2)], .cpys 5 16 10 11 2),
   (at_ 0x9 2 [(18, 6), (12, 16), (6, 10), (2, 11), (0, 2)], .cpyt 6 16 10 11 2),
   (at_ 0x9 3 [(18, 5), (12, 16), (6, 10), (2, 11), (0, 2)], .cpym 5 16 10 11 2),
   (at_ 0x9 4 [(18, 5), (12, 16), (6, 10), (2, 11), (0, 2)], .cpyr 5 16 10 11 2),
   (at_ 0x9 5 [(18, 5), (12, 16), (6, 10), (2, 11), (0, 2)], .cpyg 5 16 10 11 2),
   (at_ 0x9 6 [(18, 5), (12, 16), (6, 10), (0, 2)], .cpyp 5 16 10 2),
   (at_ 0x9 7 [], .cpyw),
   (at_ 0x9 8 [(12, 4)], .cpyx 4)]

theorem test_decode_copy : decodesTo words_copy = true := by decide +kernel

/-- Class 0xA, from code 0. -/
def words_synchronisation : List (Word × Instr) :=
  [
   (at_ 0xA 0 [(18, 9), (12, 8)], .qpush 9 8),
   (at_ 0xA 1 [(18, 9), (12, 8)], .qpop 9 8),
   (at_ 0xA 2 [(18, 9), (12, 8)], .qtry 9 8),
   (at_ 0xA 3 [(18, 9), (12, 8)], .qrsv 9 8),
   (at_ 0xA 4 [(18, 9), (12, 8)], .qcmt 9 8),
   (at_ 0xA 5 [(18, 9), (12, 8)], .qrel 9 8),
   (at_ 0xA 6 [(18, 9), (12, 8)], .qlen 9 8),
   (at_ 0xA 7 [(16, 8), (0, 0xa5)], .mbsend 8 0xa5),
   (at_ 0xA 8 [(16, 8), (0, 90)], .mbrecv 8 90),
   (at_ 0xA 9 [(18, 9), (12, 8)], .binit 9 8),
   (at_ 0xA 10 [(18, 9)], .barv 9),
   (at_ 0xA 11 [(18, 9), (12, 0), (0, 1)], .barw 9 0 1),
   (at_ 0xA 12 [(18, 9), (12, 8), (0, 1)], .barx 9 8 1),
   (at_ 0xA 13 [(18, 9)], .bsync 9),
   (at_ 0xA 14 [(18, 9), (12, 8)], .bphase 9 8),
   (at_ 0xA 15 [(16, 8), (10, 0), (8, 2), (0, 0x80)], .ggrow 8 0 2 0x80),
   (at_ 0xA 16 [], .gleave),
   (at_ 0xA 17 [(16, 8), (0, 4)], .ginfo 8 4),
   (at_ 0xA 18 [(16, 8), (0, 63)], .klaunch 8 63),
   (at_ 0xA 19 [(16, 8), (0, 1)], .sigadd 8 1)] ++
  [
   (at_ 0xA 20 [(16, 8), (0, 1)], .sigwait 8 1)]

theorem test_decode_synchronisation : decodesTo words_synchronisation = true := by decide +kernel

/-- Class 0xB, from code 0. -/
def words_register : List (Word × Instr) :=
  [
   (at_ 0xB 0 [(16, 8), (0, 16)], .rgclm 8 16),
   (at_ 0xB 1 [(16, 8), (0, 9)], .rggiv 8 9),
   (at_ 0xB 2 [(4, 2), (0, 7)], .rdef 2 7),
   (at_ 0xB 3 [(15, 12), (0, 15)], .rtag 12 15),
   (at_ 0xB 4 [(15, 12)], .rseal 12),
   (at_ 0xB 5 [(15, 12)], .rdrop 12),
   (at_ 0xB 6 [(0, 13)], .rfree 13),
   (at_ 0xB 7 [(16, 8)], .rgqry 8)]

theorem test_decode_register : decodesTo words_register = true := by decide +kernel

/-- Class 0xC, from code 0. -/
def words_format : List (Word × Instr) :=
  [
   (at_ 0xC 0 [(18, 4), (12, 8)], .fmtset 4 8),
   (at_ 0xC 1 [(18, 4), (12, 8)], .fmtget 4 8),
   (at_ 0xC 2 [(18, 4), (12, 8)], .fmtchk 4 8),
   (at_ 0xC 3 [(15, 12), (8, 20), (4, 6), (0, 4)], .vcvt 12 20 6 4),
   (at_ 0xC 4 [(15, 12), (8, 20), (4, 6), (0, 4)], .vcvto 12 20 6 4),
   (at_ 0xC 5 [(15, 12), (8, 20), (4, 6), (0, 4)], .vcvts 12 20 6 4)]

theorem test_decode_format : decodesTo words_format = true := by decide +kernel

/-- Class 0xD, from code 0. -/
def words_system : List (Word × Instr) :=
  [
   (at_ 0xD 0 [(0, 0xc3)], .trap 0xc3),
   (at_ 0xD 1 [(16, 8), (0, 60)], .assert 8 60),
   (at_ 0xD 2 [(16, 8), (0, 1)], .clkr 8 1),
   (at_ 0xD 3 [(16, 8), (0, 3)], .featr 8 3),
   (at_ 0xD 4 [(0, 0x1234)], .sleep 0x1234),
   (at_ 0xD 5 [(16, 8), (0, 29)], .csrd 8 29),
   (at_ 0xD 6 [(16, 8), (0, 12)], .cswr 8 12),
   (at_ 0xD 7 [(0, 0xbeef)], .sampm 0xbeef),
   (at_ 0xD 8 [(0, 0x81)], .bkpt 0x81)]

theorem test_decode_system : decodesTo words_system = true := by decide +kernel

/-- Class 0xE, from code 0. -/
def words_hint : List (Word × Instr) :=
  [
   (at_ 0xE 0 [(18, 9), (17, 1), (16, 0), (12, 6), (11, 0), (10, 1), (6, 5), (5, 1), (4, 0), (3, 1)], .hsch 9 1 0 6 0 1 5 1 0 1),
   (at_ 0xE 1 [(0, 0x3FFFFE)], .himm 0x3FFFFE),
   (at_ 0xE 2 [(12, 0x2AB)], .himmx 0x2AB),
   (at_ 0xE 3 [(19, 4), (17, 2), (14, 5), (13, 1), (11, 2), (8, 3), (5, 6), (4, 1), (3, 0), (2, 1), (1, 0), (0, 1)], .hmod 4 2 5 1 2 3 6 1 0 1 0 1),
   (at_ 0xE 4 [(19, 5), (18, 1)], .hpred 5 1),
   (at_ 0xE 5 [(19, 4), (14, 5), (11, 5), (6, 0), (0, 0x2A)], .hperm 4 5 5 0 0x2A)]

theorem test_decode_hint : decodesTo words_hint = true := by decide +kernel
/-! ### Well-formedness: an ill-formed term for each check, which the check refuses and of which the decoder knows no word -/

/-- Every term is refused, and so is the word that its fields make. -/
def refused (l : List Instr) : Bool :=
  l.all (fun i => !i.wf && (match Sys2Proof.encode i with
    | some w => (match Sys2Proof.decode w with | .ok _ => false | .error _ => true)
    | none => true))

/-- With I = 1 the register field of b is zero (R53). -/
theorem test_wf_immediates : refused [
    .sadd 0 0 1 1, .saddc 0 0 1 1 0, .ssub 0 0 1 1, .ssubb 0 0 1 1 0, .smul 0 0 1 1, .smulhi 0 0 1 1, .smulhu 0 0 1 1, .smad 0 0 1 1,
    .sdiv 0 0 1 1, .sdivu 0 0 1 1, .srem 0 0 1 1, .sremu 0 0 1 1, .sand 0 0 1 1, .sor 0 0 1 1, .sxor 0 0 1 1, .sandn 0 0 1 1,
    .sshl 0 0 1 1, .sshr 0 0 1 1, .ssra 0 0 1 1, .srol 0 0 1 1, .smin 0 0 1 1, .smax 0 0 1 1, .sminu 0 0 1 1, .smaxu 0 0 1 1,
    .scmp 0 0 0 1 1, .ssel 0 0 1 1 0, .sbfe 0 0 1 1, .sbfi 0 0 1 1, .sadd64 0 0 2 1, .ssub64 0 0 2 1, .sshl64 0 0 1 1, .sshr64 0 0 1 1] = true ∧
  refused [
    .vadd 0 0 1 1, .vavg 0 0 1 1, .vsub 0 0 1 1, .vmul 0 0 1 1, .vmulhi 0 0 1 1, .vmulhu 0 0 1 1, .vmad 0 0 1 1, .vand 0 0 1 1, .vor 0 0 1 1,
    .vxor 0 0 1 1, .vandn 0 0 1 1, .vshl 0 0 1 1, .vshr 0 0 1 1, .vsra 0 0 1 1, .vmin 0 0 1 1, .vmax 0 0 1 1, .vminu 0 0 1 1, .vmaxu 0 0 1 1,
    .vabsd 0 0 1 1, .vsad 0 0 1 1, .vcmp 0 0 0 1 1, .vsel 0 0 1 1, .vbfe 0 0 1 1, .vbfi 0 0 1 1, .vadd64 0 0 2 1, .vsub64 0 0 2 1,
    .vfadd 0 0 0 1 1, .vfsub 0 0 0 1 1, .vfmul 0 0 0 1 1, .vfma 0 0 0 1 1, .vfmin 0 0 0 1 1, .vfmax 0 0 0 1 1, .vfcmp 0 0 0 0 1 1,
    .vfdiv 0 0 0 1 1, .vshfl 0 0 1 1, .vballot 0 0 0 1 1, .vvote 0 0 0 1 1] = true := by decide +kernel

/-- The even register of a pair has an even number, and the first of four one that is a multiple of 4 (R41). -/
theorem test_wf_pairs : refused [
    .sadd64 1 0 0 0, .sadd64 0 1 0 0, .sadd64 0 0 1 0, .ssub64 1 0 0 0, .ssub64 0 1 0 0, .ssub64 0 0 1 0, .sshl64 1 0 0 0, .sshl64 0 1 0 0,
    .sshr64 1 0 0 0, .sshr64 0 1 0 0, .sld 1 0 0 5, .sst 1 0 0 5, .satom 1 0 0 5 0, .scas 1 0 0 4, .scas 2 0 0 5, .dmake 2 0, .dset 1 0 0,
    .dget 2 0, .pgreq 1 0 0, .jmpi 1 0, .vadd64 1 0 0 0, .vadd64 0 1 0 0, .vadd64 0 0 1 0, .vsub64 1 0 0 0, .vsub64 0 1 0 0, .vsub64 0 0 1 0] = true ∧
  refused [
    .vfadd 1 1 0 0 0, .vfadd 1 0 1 0 0, .vfadd 1 0 0 1 0, .vfsub 1 1 0 0 0, .vfsub 1 0 1 0 0, .vfsub 1 0 0 1 0, .vfmul 1 1 0 0 0,
    .vfmul 1 0 1 0 0, .vfmul 1 0 0 1 0, .vfma 1 1 0 0 0, .vfma 1 0 1 0 0, .vfma 1 0 0 1 0, .vfmin 1 1 0 0 0, .vfmin 1 0 1 0 0,
    .vfmin 1 0 0 1 0, .vfmax 1 1 0 0 0, .vfmax 1 0 1 0 0, .vfmax 1 0 0 1 0, .vfcmp 1 0 0 1 0 0, .vfcmp 1 0 0 0 1 0, .vfrnd 1 1 0, .vfrnd 1 0 1,
    .vfcls 1 1 0, .vfcls 1 0 1, .vfsqrt 1 1 0, .vfsqrt 1 0 1, .vfdiv 1 1 0 0 0, .vfdiv 1 0 1 0 0, .vfdiv 1 0 0 1 0,
    .vld 1 0 0 5 0, .vld 2 0 0 6 0, .vldp 1 0 0 0 1, .vst 1 0 0 5 0, .vst 2 0 0 6 0, .vlds 1 0 5 0, .vlds 2 0 6 0, .vsts 1 0 5 0, .vsts 2 0 6 0] = true ∧
  refused [
    .tmma 0 1 0 0, .tmma 0 0 1 0, .tmmax 0 1 0 0, .tmmax 0 0 1 0, .tfill 0 1, .tscale 0 1 0, .tscale 0 0 1, .tsmx 0 1 0, .tsmx 0 0 1,
    .tdrain 0 1 0, .tdrain 0 0 1, .tamaxr 0 1, .tsider 0 1 0, .tsider 0 0 1, .tsidew 0 1 0, .tsidew 0 0 1, .tgang 0 1,
    .cpy 0 1 0 0 0, .cpy 0 0 1 0 0, .cpys 0 1 0 0 0, .cpys 0 0 1 0 0, .cpyt 0 2 0 0 0, .cpyt 0 0 1 0 0, .cpyt 1 0 0 0 0, .cpym 0 2 0 0 0,
    .cpym 0 0 1 0 0, .cpyr 0 2 0 0 0, .cpyr 0 0 1 0 0, .cpyg 0 2 0 0 0, .cpyg 0 0 1 0 0, .cpyp 0 1 0 0, .cpyp 0 0 1 0, .cpyx 1,
    .qpop 0 1, .qtry 0 1, .qcmt 0 1, .mbsend 2 0, .mbrecv 2 0, .bphase 0 1, .klaunch 2 0, .sigadd 2 0, .sigwait 2 0, .clkr 1 0] = true := by decide +kernel

/-- Codes above the last, unused fields and operand ranges (R41, R43, R44, R46, the entries). -/
theorem test_wf_codes : refused [
    .scmp 0 10 0 0 0, .sld 0 0 0 6, .sst 0 0 0 6, .satom 0 0 0 3 0, .scas 0 0 0 3, .sget 0 20, .ssetx 0 15, .dset 0 0 7, .sldk 0 2, .vcmp 0 10 0 0 0,
    .vfcmp 0 0 6 0 0 0, .vfcmp 0 0 12 0 0 0, .vftrig 0 0 3, .vld 0 0 0 7 0, .vst 0 0 0 7 0, .vlds 0 0 7 0, .vsts 0 0 7 0,
    .vred 15 0 0 0, .vsatom 0 0 0 15, .vballot 0 10 0 0 0, .vvote 0 10 0 0 0, .vredx 0 0 10, .vscanx 0 0 10, .vscanx 0 0 32, .vpackb 0 0 25,
    .vpackn 0 0 29, .vpack6 0 0 27, .vunpk6 0 0 27, .tmma 0 0 0 3, .tmmax 0 0 0 7] = true := by decide +kernel

theorem test_wf_more_codes : refused [
    .cpy 0 0 0 0 3, .cpys 0 0 0 0 3, .cpyt 0 0 0 0 3, .cpym 0 0 0 0 3, .cpyr 0 0 0 0 3, .cpyg 0 0 0 0 3, .cpyp 0 0 0 3, .barw 0 1 1, .ggrow 0 0 3 1,
    .ggrow 0 0 0 0, .ggrow 0 0 0 129, .ggrow 0 1 0 1, .ginfo 0 5, .rgclm 0 0, .rgclm 0 17, .rggiv 0 0, .rggiv 0 17, .csrd 0 0x0D, .csrd 0 0x1E,
    .cswr 0 0x0F, .cswr 0 0x1E, .hmod 5 0 0 0 0 0 0 0 0 0 0 0, .hmod 0 0 6 0 0 0 0 0 0 0 0 0, .hperm 0 1 0 0 0, .hperm 4 0 0 0 0, .hperm 4 6 0 0 0,
    .hperm 5 1 0 0 0, .hperm 6 0 0 0 0, .hperm 0 0 7 0 0, .hperm 0 0 0 0 1] = true := by decide +kernel

/-- Legal neighbours of some of them. -/
theorem test_wf_legal :
    ([.sadd 1 2 0 1, .sld 2 0 0 5, .vfadd 1 2 4 6 0, .vfadd 0 1 3 5 0, .vld 4 0 0 6 0, .scmp 0 9 0 0 0, .vfcmp 0 0 11 0 0 0, .vredx 0 0 9,
      .vscanx 0 0 25, .ggrow 0 0 2 128, .rgclm 0 16, .csrd 0 0x1D, .hperm 4 5 5 0 7, .hmod 4 3 5 1 3 7 7 1 1 1 1 1, .barw 0 1 0] : List Instr).all Instr.wf
      = true := by decide +kernel

/-- Operation 15 of the atomics is `VCAS`, a form of its own. -/
theorem test_wf_vatom : (Instr.vatom 15 0 0 0 0).wf = false := by decide
/-! ### Witnesses: classes 0x0 to 0x2 -/

theorem witness_ScalarResults :
    every [
      scalarTable.all (fun r => runs (r.1 1 2 3 0) && runs (r.1 63 0 62 0) && met (r.1 0 0 0 1) [.himm 5] id (fun _ => true)),
      runs (.saddc 1 2 3 0 7),
      runs (.ssubb 1 2 3 0 0),
      runs (.scmp 1 9 2 3 0),
      runs (.ssel 1 2 3 0 1),
      runs (.smov 1 2),
      runs (.smovi 1 0x8000),
      runs (.smovhi 1 0xFFFF),
      runs (.sclz 1 2),
      runs (.spopc 1 2),
      runs (.sadd64 62 0 2 0),
      runs (.ssub64 2 4 6 0),
      runs (.sshl64 2 4 7 0),
      runs (.sshr64 2 4 63 0)] = true := by decide +kernel

theorem witness_RegistersAndFrame :
    every [
      met (.smov 1 2) [] id (fun J =>
      (J.st.warp? J.ref.warp == some J.warp) && J.warp.uid == J.ref.warp && J.warp.getS 63 == 0 && J.warp.getK 0 == 0xFFFFFFFF)] = true := by decide +kernel

/-- A record over device memory at virtual address 0x200000 with 2^32 - 1 elements of 16 bytes. -/
def wide (w : Warp) : Warp :=
  w.setD 1 ({ clmp := false, imm := false, ro := false, swz := 0, base := 0x200000, esz := 4, str := 0, ext := 0xFFFFFFFF } : Buf).word

theorem witness_BufferRecords :
    every [
      met (.dmake 4 15) [] id (fun J => bufMalformed (J.quad 4) == false),
      met (.dmake 4 0) [] (warpDo (fun w => w.setS 7 0xFFFFFFFF)) (fun J => bufMalformed (J.quad 4) == true),
      met (.dset 1 0 1) [] (warpDo (fun w => w.setS 1 0xFFFFFFFF)) (fun J =>
        ((Buf.of (J.view.getD 0)).setField 1 (J.sv 1#6) (J.pv 1#6)).elim false (fun b => !bufMalformed b.word)),
      met (.dset 1 0 6) [] id (fun J => ((Buf.of (J.view.getD 0)).setField 6 (J.sv 1#6) (J.pv 1#6)).elim false (fun b =>
        !bufMalformed b.word && decide ((J.sv 1#6).toNat ≤ (Buf.of (J.view.getD 0)).ext))),
      met (.dset 1 0 6) [] (warpDo (fun w => w.setS 1 5)) (fun J =>
        let old := Buf.of (J.view.getD 0)
        old.swz != 3 && decide (old.ext < (J.sv 1#6).toNat)),
      met (.dset 0 0 0) [] (warpDo (fun w => w.setPair 0 0x0200000000000000)) (fun J =>
        (Buf.of (J.view.getD 0)).setField 0 (J.sv 0#6) (J.pv 0#6) == none),
      met (.dset 1 0 4) [] (warpDo (fun w => w.setS 1 3)) (fun J =>
        ((Buf.of (J.view.getD 0)).setField 4 (J.sv 1#6) (J.pv 1#6)).elim false (fun b => bufMalformed b.word)),
      met (.dload 1 6 2) [] (fun s => { warpDo wide s with mem := memSetNat s.mem 0x20000C 4 0xFFFFFFFF }) (fun J =>
        let ls := J.resolve 1 16 false [(0, (J.sv 6#6).toNat)]
        (match J.st.settle J.agent ls { core := J.warp.core, scope := 0, promotes := false } false true with
          | .ok s => bufMalformed (BitVec.ofNat 128 (laneNat (s.loadLanes J.agent 16 ls) 0)) | _ => false)),
      runs (.dget 4 3)] = true := by decide +kernel

theorem witness_BufferChecks :
    every (
    let b : Buf := { clmp := false, imm := false, ro := true, swz := 0, base := 0x200000, esz := 2, str := 0, ext := 4 };
      [
      b.check 8 0 false == .bounds,
      b.check 4 4 false == .bounds,
      ({ b with clmp := true }).check 4 4 false == .clamped,
      ({ b with base := 1 }).check 4 3 false == .align 13,
      b.check 4 3 true == .readOnly 0x20000C,
      b.check 4 3 false == .want 0x20000C]) = true := by decide +kernel

theorem witness_ScalarMemory :
    every [
      [0, 4, 5].all (fun z => met (.sld 2 6 1 z) [] (warpDo wide) (fun J =>
        match J.st.settle J.agent (J.resolve 1 (sizeBytes z.toNat) false [(0, (J.sv 6#6).toNat)]) J.visitLoad false true with
        | .ok s => decide (s = J.st) | _ => false)),
      met (.dload 1 6 2) [] (warpDo wide) (fun J =>
        let ls := J.resolve 1 16 false [(0, (J.sv 6#6).toNat)]
        (match J.st.settle J.agent ls { core := J.warp.core, scope := 0, promotes := false } false true with
          | .ok s => decide (s = J.st) | _ => false) &&
          !bufMalformed (BitVec.ofNat 128 (laneNat (J.st.loadLanes J.agent 16 ls) 0))),
      [0, 4, 5].all (fun z => met (.sst 2 6 1 z) [] (warpDo wide) (fun J =>
        (match J.st.settle J.agent (J.resolve 1 (sizeBytes z.toNat) true [(0, (J.sv 6#6).toNat)]) J.visitStore true false with
          | .ok s => decide (s = J.st) | _ => false) && !J.releases)),
      [Instr.satom 2 6 1 4 0, .satom 2 6 1 5 0, .scas 2 6 1 4, .scas 2 6 1 5].all (fun i => met i [] (warpDo wide) (fun J =>
        let z := match i with | .satom _ _ _ z _ => z | .scas _ _ _ z => z | _ => 0
        let ls := J.resolve 1 (sizeBytes z.toNat) true [(0, (J.sv 6#6).toNat)]
        let reqs := (performLanes ls).map (fun p => ({ lane := p.1, key := p.2.2, size := sizeBytes z.toNat, op := 0, b := 0, cmp := none, va := p.2.1 } : AtomReq))
        (match J.st.settle J.agent ls J.visitAtomic true false with
          | .ok s => (match J.release s (J.atomicScope J.allLanes reqs) with
            | .ok s => isOk (s.atomicAfter J.warp.core reqs)
            | .error _ => false)
          | _ => false) && !anyAway (dieOf J.warp.core) (reqs.map AtomReq.key))),
      met (.sst 2 6 1 4) [.hmod 2 2 0 0 0 0 0 0 0 0 0 0] (warpDo wide) (fun J =>
        J.releases && isOk (J.release J.st J.h.m.scope))] = true := by decide +kernel

theorem witness_SpecialAndStateScalars :
    every [
      specialTable.all (fun r => runs (.sget 1 r.1)),
      runs (.ssetx 1 16),
      runs (.ssetx 1 17),
      met (.ssetx 1 16) [] (warpDo (fun w => { w with role := .maths })) (fun J => J.warp.role != .epilogue),
      runs (.sampm 65535),
      runs (.clkr 2 0),
      runs (.clkr 2 1),
      [0, 1, 2, 3].all (fun f => runs (.featr 1 f)),
      met .fence [.hmod 0 1 0 0 0 0 0 0 0 0 0 0] id (fun J => !J.releases && J.h.m.scope == 0),
      met .fence [.hmod 3 1 0 0 0 0 0 0 0 0 0 0] id (fun J => !J.releases && J.h.m.scope == 3),
      met .fence [.hmod 3 2 0 0 0 0 0 0 0 0 0 0] id (fun J => J.releases && isOk (J.release J.st J.h.m.scope)),
      met .fence [.hmod 0 2 0 0 0 0 0 0 0 0 0 0] id (fun J => J.releases && J.h.m.scope == 0 && isOk (J.releaseOwn J.st)),
      [0, 1].all (fun w => met (.pgreq 2 w 0) [] id (fun J =>
        (match J.st.translateOnly J.agent.master J.ctx (if w = 1#1 then .write else .read) (vaMask (J.pv 2#6).toNat) with
          | .ok _ => isOk (J.st.sendWalks J.agent (if w = 1#1 then .write else .read) [vaMask (J.pv 2#6).toNat]) | _ => false))),
      met (.sldk 1 4) [] (gridDo (fun g => { g with kd := { g.kd with args := 8 } })) (fun J => decide (4 + 4 ≤ J.grid.kd.args)),
      met (.sldk 1 5) [] (gridDo (fun g => { g with kd := { g.kd with args := 8 } })) (fun J => decide (J.grid.kd.args < 5 + 4)),
      runs (.csrd 1 0),
      met (.csrd 1 5) [] (gridDo (fun g => { g with handler := true })) (fun _ => true),
      met (.cswr 1 5) [] (gridDo (fun g => { g with handler := true })) (fun _ => true),
      [0x17, 0x1D].all (fun r => met (.cswr 1 r) [] (gridDo (fun g => { g with handler := true })) (fun J =>
        isOk (J.release J.st 4)))] = true := by decide +kernel

theorem witness_BranchesSendLanes :
    every (
    let k := fun (x : Word) => warpDo (fun w => w.setK 1 x);
      [
      runs (.bra 5),
      met (.brac 1 0 3) [] (warpDo (fun w => w.setC 1 true)) (fun J => J.view.getC 1 && J.active != 0),
      met (.brac 1 1 3) [] (warpDo (fun w => w.setC 1 true)) (fun J => J.view.getC 1),
      runs (.brac 1 0 3),
      met (.brak 1 0 3) [] (k 0xFFFFFFFF) (fun J => J.active &&& J.view.getK 1 == J.active),
      met (.brak 0 1 3) [] id (fun J => J.active &&& ~~~(J.view.getK 0) == 0),
      met (.brak 1 0 3) [] (k 0xFF) (fun J => J.active &&& J.view.getK 1 != 0 && J.active &&& J.view.getK 1 != J.active),
      met (.braka 1 0 3) [] (k 0xFFFFFFFF) (fun J => J.active &&& J.view.getK 1 == J.active),
      met (.braka 1 0 3) [] (k 0xFF) (fun J => J.active &&& J.view.getK 1 != J.active),
      runs (.loop 1 0xFFFF),
      met (.loop 1 3) [] (warpDo (fun w => w.setS 1 1)) (fun J => J.view.getS 1 == 1)]) = true := by decide +kernel

theorem witness_CallsAndConvergence :
    every (
    let stack := fun n => fragDo (fun f => { f with ret := List.replicate n 4 });
    let joins := fun n => fragDo (fun f => { f with conv := List.replicate n { p := f.pc, m := 0xFFFFFFFF, d := 0 } });
      [
      met (.call 1) [] (stack 15) (fun J => decide (J.frag.ret.length < 16)),
      met (.call 1) [] (stack 16) (fun J => J.frag.ret.length == 16),
      met (.calli 1 0) [] (gridDo (fun g => { g with kd := { g.kd with itabn := 1 } })) (fun J =>
        (J.st.kernel? J.grid.part J.grid.kid).isNone && decide (0 < J.grid.kd.itabn) && isOk (J.readDword 0)),
      met (.calli 1 1) [] (gridDo (fun g => { g with kd := { g.kd with itabn := 1 } })) (fun J =>
        (J.st.kernel? J.grid.part J.grid.kid).isNone && decide (J.grid.kd.itabn ≤ 1)),
      met .ret [] (stack 1) (fun J => J.frag.ret == [4]),
      met .ret [] id (fun J => J.frag.ret == [] &&
        isOk (J.release J.st J.group.scope)),
      runs (.jmpi 2 1),
      met (.jmpi 2 1) [] (warpDo (fun w => w.setS 2 3)) (fun J => (J.view.getPair 2 + 4).toNat % 4 == 3),
      met (.cvset 1) [] (joins 7) (fun J => J.frag.conv.length == 7),
      met (.cvset 1) [] (joins 8) (fun J => J.frag.conv.length == 8),
      met .cvwait [] (joins 1) (fun J => J.frag.conv.head?.any (fun e => e.p == J.frag.pc && e.d == J.frag.ret.length)),
      met .cvwait [] (joins 1) (fun J => J.frag.conv.head?.any (fun e => e.p == J.frag.head && e.d == J.frag.ret.length)),
      met .cvwait [] id (fun J => J.frag.conv.isEmpty && !J.warp.frags.any Frag.parked),
      met .cvwait [] (warpDo (fun w => { w with frags := w.frags ++ [{ Frag.fresh 1 (some 1) 1 0 with wait := .parked 0 }] })) (fun J =>
        J.frag.conv.isEmpty && J.warp.frags.any Frag.parked),
      met .exit [] id (fun J => isOk (J.release J.st J.group.scope)),
      runs .nop,
      runs .yield]) = true := by decide +kernel

/-! ### Witnesses: classes 0x3, 0x4 and 0x7 -/

theorem witness_LaneResults :
    every [
      laneTable.all (fun r => met (r.1 1 2 3 0) [] id (fun J => decide (J.h.m.wid ≤ 3)) && met (r.1 5 5 5 1) [.himm 7] id (fun _ => true) ||
        runs (r.1 5 5 0 0)),
      met (.vadd 1 2 3 0) [.hmod 0 0 0 1 3 7 7 0 0 0 0 1] id (fun J => J.h.m.wid == 3 && J.h.m.sat && J.h.m.sgn && J.h.m.sela == 7) ||
        met (.vadd 1 2 3 0) [.hmod 0 0 0 1 3 4 4 0 0 0 0 1] id (fun J => J.h.m.wid == 3 && J.h.m.sat && J.h.m.sgn && J.h.m.sela == 4)]
      = true := by decide +kernel

theorem witness_LaneResultsOfOtherForms :
    every [
      runs (.vsad 1 2 3 0),
      runs (.vbfe 1 2 3 0),
      runs (.vbfi 1 2 3 0),
      runs (.vcmp 1 9 2 3 0),
      met (.vcmp 1 9 2 3 0) [] (fragDo (fun f => { f with lanes := 1 })) (fun J => !J.active.getLsbD 1 && J.active.getLsbD 0),
      met (.vsel 1 2 3 0) [.hpred 1 0] (warpDo (fun w => w.setK 1 5)) (fun J => J.mask == 5),
      runs (.vmovi 127 0x4000),
      runs (.vmovs 1 63),
      runs (.vidx 1 0),
      met (.vidx 1 1) [.himm 9] id (fun J => J.h.imm == some 9),
      runs (.vadd64 126 2 4 0),
      runs (.vsub64 2 2 2 0),
      met (.vsub64 2 2 0 1) [.himm 0x3FFFFF] id (fun _ => true)] = true := by decide +kernel

theorem witness_LanesOutsideKeep :
    every [
      met (.vmov 1 2) [] id (fun J => J.warp.mapped 1 == false && J.warp.v.isEmpty),
      met (.vmov 1 2) [] (warpDo (fun w => w.putV 1 (perLane (fun L => BitVec.ofNat 32 L)))) (fun J =>
        J.warp.mapped 1 && (J.warp.v.map Prod.fst == [1]))] = true := by decide +kernel

theorem witness_FloatResults :
    every [
      floatTable.all (fun r => runs (r.1 0 2 4 6 0) && runs (r.1 1 2 4 6 0)),
      met (.vfadd 2 2 4 6 0) [.hmod 0 0 5 0 0 0 0 1 0 0 1 0] id (fun J => J.h.m.rnd == 5 && J.h.m.nega && J.h.m.absb),
      runs (.vfcmp 0 1 5 2 4 0),
      runs (.vfcmp 1 1 11 126 4 0),
      (precFmt 0).subnormal ((precFmt 0).decode 0x80000001),
      !(precFmt 0).subnormal ((precFmt 0).decode 0x00800000)] = true := by decide +kernel

theorem witness_FloatNaNs :
    every [
      ((precFmt 0).decode 0x7F800001).isNaN && ((precFmt 0).decode 0x7F800001).isSignalling,
      ((precFmt 0).decode 0x7FC00000).isNaN && !((precFmt 0).decode 0x7FC00000).isSignalling,
      (precFmt 0).decode 0x7F800000 == .inf false && (precFmt 0).decode 0xFF800000 == .inf true,
      (match (precFmt 0).decode 0x80000000 with | .fin true z => z.isZero | _ => false)] = true := by decide +kernel

theorem witness_RoundingKeepsExactValues :
    every ((List.range 4).map (fun p => match (precFmt p).decode 1 with | .fin false m => !m.isZero | _ => false)) = true := by
  decide +kernel

theorem witness_CrossingsByLane :
    every [
      runs (.vshfl 1 2 3 0),
      runs (.vperm 1 2 3),
      runs (.vmatch 1 2 3),
      met (.vmatch 1 2 3) [.hmod 0 0 0 0 3 0 0 0 0 0 0 0] id (fun J => J.h.m.wid == 3 && J.h.m.sela == 0),
      met (.vmatch 1 2 3) [.hmod 0 0 0 0 1 2 0 0 0 0 0 0] id (fun J => J.h.m.wid == 1 && J.h.m.sela == 2),
      runs (.vballot 1 0 2 3 0),
      met (.vballot 2 0 1 0 1) [.himm 5] (fragDo (fun f => { f with lanes := 0xFFFF })) (fun J => J.active == 0xFFFF),
      runs (.vvote 1 9 2 3 0),
      met (.velect 1) [.hpred 2 0] id (fun J => J.mask == 0 && J.active == 0xFFFFFFFF)] = true := by decide +kernel

theorem witness_ReductionsAndScans :
    every [
      (List.range 10).all (fun o => runs (.vredx 1 2 (BitVec.ofNat 7 o)) && runs (.vscanx 1 2 (BitVec.ofNat 7 (16 + o)))),
      met (.vredx 1 2 0) [.hmod 0 0 0 1 3 0 0 0 0 0 0 1] id (fun J => J.h.m.wid == 3 && J.h.m.sat && J.mask != 0),
      met (.vredx 1 2 0) [.hpred 1 0] id (fun J => J.mask == 0),
      met (.vscanx 1 2 16) [.hpred 1 0] id (fun J => J.mask == 0)] = true := by decide +kernel

theorem witness_MasksAndPacking :
    every [
      runs (.kand 1 2 3),
      runs (.kor 0 0 7),
      runs (.kxor 7 7 7),
      runs (.knot 1 2),
      runs (.kmov 1 2),
      runs (.kcnt 1 0),
      met (.kfirst 1 1) [] id (fun J => J.view.getK 1 == 0),
      runs (.ktos 1 7),
      runs (.stok 1 0),
      runs (.vpackb 1 2 24),
      runs (.vpackn 1 2 28),
      runs (.vpack6 1 2 26),
      runs (.vunpk6 1 2 26),
      runs (.vcmpr 1 2),
      met (.vcmpr 1 2) [.hmod 0 0 0 0 1 0 0 0 0 0 0 0] id (fun J => J.h.m.wid == 1),
      runs (.vxpnd 1 2),
      met (.vxpnd 1 2) [.hmod 0 0 0 0 1 0 0 0 0 0 0 0] id (fun J => J.h.m.wid == 1)] = true := by decide +kernel

/-! ### Witnesses: memory, formats, budgets and recipes -/

theorem witness_MemoryReadsAfterWrites :
    every [
      Memory.wf [] && Memory.wf [(3, 1), (4, 255)] && !Memory.wf [(4, 1), (3, 1)] && !Memory.wf [(3, 0)],
      memSetNat [] 3 2 0x1FF01 == [(3, 1), (4, 255)]] = true := by decide +kernel

/-- A store of core 0 in its buffer, with a store number. -/
def entry (seq key : Nat) : StoreEntry :=
  { from_ := { core := 0, warp := 0, lanes := 1, part := 0, ctx := 0, group := 0, grid := 0, who := 0, frag := 0, kid := 0, gx := 0, gy := 0,
               gz := 0, gridn := 0, op := 0, told := false, va := key },
    seq := seq, key := key, data := [1, 2, 3, 4], rel := none, since := 0, due := false }
def buffered (s : State) : State := { s with sbuf := [entry 3 0x200000, entry 5 0x200002], sbufSeq := s.sbufSeq.setIfInBounds 0 6 }

/-- The state in which the warp of `withFetchWord` issues, and the same with two stores in the buffer of core 0. -/
theorem witness_storesOrdered :
    (fixture .nop [] id).storesOrdered 0 ∧ (fixture .nop [] buffered).storesOrdered 0 ∧ (fixture .nop [] buffered).storeNumber 0 = 6 := by
  unfold State.storesOrdered
  decide +kernel

theorem witness_StoresAreSeen :
    every [
      (fixture .nop [] id).sbuf == [] && !away 0 0x200000 && away 0 (2 ^ 52) && away 0 0x3000000000,
      !(fixture .nop [] id).lineHeld 0 0 0x4000 && (fixture .nop [] (fun s => { s with hostHeld := [0x4000] })).lineHeld 0 0 0x4000,
      !(fixture .nop [] id).sentUnperformed 0 0 && (fixture .nop [] id).flows == [],
      (fixture .nop [] buffered).sbuf.all (fun e => rangesMeet e.key e.data.length 0x200002 2 && !away 0 e.key),
      (((fixture .nop [] buffered).storeGlobal (entry 0 0).from_ 2 (some 2) 0x200002 [9, 9]).sbuf == []),
      (fixture .nop [] id).messageByte 1 0x200000 == none] = true := by decide +kernel

/-- The reset state meets the hypothesis of `StepsKeepStoreOrder`, and so does one with stores; both have a next state. -/
theorem witness_StepsKeepStoreOrder :
    (∀ c < 48, State.reset.storesOrdered c) ∧ (∀ c < 48, (fixture .nop [] buffered).storesOrdered c) ∧
      (match step State.reset with | .next _ => true | _ => false) = true ∧
      (match step (fixture .nop [] buffered) with | .next _ => true | _ => false) = true := by
  unfold State.storesOrdered
  decide +kernel

theorem witness_AtomicOperations :
    every [
      decide ((0xFFFFFFFF : Nat) < 2 ^ (8 * 4)) && decide ((2 ^ 64 - 1 : Nat) < 2 ^ (8 * 8)),
      goesNow ((fixture .nop [] buffered).atomicAfter 0 [{ lane := 0, key := 0x200000, size := 4, op := 0, b := 1, cmp := none, va := 0 }])
        (fun s => s.sbuf == [])] = true := by decide +kernel

/-- The lanes of a load of 4 bytes from a record of 4 elements. -/
def fourLanes : List LaneState :=
  (fixture .nop [] id).laneStates { part := 0, slot := 0, eng := 0, core := 0 } wordCtx { clmp := false, imm := false, ro := false, swz := 0, base := 0x200000, esz := 2, str := 0, ext := 4 } 4 false
    [(0, 3), (1, 4), (2, 5)]

theorem witness_AccessFaultsInOrder :
    every [
      fourLanes.map LaneState.lane == [0, 1, 2],
      !anyNowhere fourLanes,
      fourLanes.map (fun l => l.fault.map Prod.fst) == [none, some 0, some 0]] = true := by decide +kernel

/-- Whether the lanes of a vector access of the fixture resolve with nothing to wait for. -/
def lanesReady (J : Issue) (n : Nat) (write reads : Bool) (v : Visit) : Bool :=
  let ls := J.resolve 1 n write (J.indexed (2 : BitVec 7))
  match J.st.settle J.agent ls v write reads with
  | .ok s => decide (s = J.st) && !anyAway (dieOf J.warp.core) ((performLanes ls).map (fun p => p.2.2))
  | .error _ => false

/-- Two lanes over the wide record. -/
def narrow (s : State) : State := fragDo (fun f => { f with lanes := 3 }) (warpDo wide s)

/-- Whether the release of an access completes at once. -/
def releasesNow (J : Issue) : Bool := J.releases && isOk (J.release J.st J.h.m.scope)

theorem witness_VectorMemory :
    every [
      [0, 4, 5, 6].all (fun z => met (.vld 4 2 1 z 0) [] narrow (fun J => lanesReady J (sizeBytes z.toNat) false true J.visitLoad)),
      met (.vldp 4 2 1 1 0) [] narrow (fun J => lanesReady J 4 false true J.visitLoad),
      met (.vldp 4 2 1 1 1) [] narrow (fun J => lanesReady J 8 false true J.visitLoad),
      [0, 4, 5, 6].all (fun z => met (.vst 4 2 1 z 0) [] narrow (fun J =>
        lanesReady J (sizeBytes z.toNat) true false J.visitStore && !J.releases)),
      met (.vst 4 2 1 4 0) [.hmod 3 2 0 0 0 0 0 0 0 0 0 0] narrow releasesNow,
      runs (.vpref 2 1 0)] = true := by decide +kernel

/-- Whether the releases and older stores of the atomics of a vector access let them perform at once. -/
def atomicsGo (J : Issue) (n : Nat) : Bool :=
  let reqs := (performLanes (J.resolve 1 n true (J.indexed (2 : BitVec 7)))).map (fun p =>
    ({ lane := p.1, key := p.2.2, size := n, op := 0, b := 0, cmp := none, va := p.2.1 } : AtomReq))
  goesNow (J.release J.st (J.atomicScope J.ownLane reqs)) (fun s => isOk (s.atomicAfter J.warp.core reqs))

theorem witness_VectorAtomics :
    every [
      (List.range 15).all (fun f => met (.vatom (BitVec.ofNat 6 f) 4 2 6 1) [] narrow (fun J =>
        lanesReady J 4 true false J.visitAtomic && atomicsGo J 4)),
      met (.vatom 0 4 2 6 1) [.hmod 0 0 0 0 1 0 0 0 0 0 0 0] narrow (fun J => lanesReady J 8 true false J.visitAtomic && atomicsGo J 8 && J.h.m.wid == 1),
      met (.vcas 4 2 6 1) [] narrow (fun J => lanesReady J 4 true false J.visitAtomic && atomicsGo J 4),
      met (.vred 0 2 6 1) [] narrow (fun J => lanesReady J 4 true false J.visitAtomic && atomicsGo J 4),
      met (.vred 0 2 6 1) [.hmod 4 2 0 0 0 0 0 0 0 0 0 0] narrow (fun J => releasesNow J && atomicsGo J 4)] = true := by decide +kernel

/-- A vector of scratchpad addresses, 4 bytes apart. -/
def spread (w : Warp) : Warp := w.putV 3 (perLane (fun L => BitVec.ofNat 32 (4 * L)))

/-- The lock of address 4 held by lane 31, which is not active, and some lanes active. -/
def lane31Locks (lanes : Word) (s : State) : State :=
  fragDo (fun f => { f with lanes := lanes }) (warpDo (fun w => { spread w with locks := [(31, 4)] }) s)

/-- The lanes whose locks a locking load finds held. -/
def lateLanes (J : Issue) : Word :=
  match J.spadLanes 4 (J.spadAddrs (3 : BitVec 7) 0 4) with
  | .ok rs =>
    let got := takeLocks (J.put (J.warp.releaseLocks J.mask)) J.warp.core [] rs
    maskOf (fun L => rs.any (fun p => p.1 == L) && !got.any (fun p => p.1 == L))
  | .error _ => 0

theorem witness_Scratchpad :
    (let inside := fun (J : Issue) => isOk (J.spadLanes 4 (J.spadAddrs (3 : BitVec 7) 0 4)) && isOk (J.spadLanes 4 (J.spadAddrs (3 : BitVec 6) 0 4))
     every [
      met (.vlds 4 3 4 0) [] (warpDo spread) inside,
      met (.vsts 4 3 4 0) [] (warpDo spread) inside,
      met (.vsatom 4 3 5 0) [] (warpDo spread) (fun J => inside J && !J.st.lockHeld 0 (lockOf 0)),
      met (.vscas 4 3 5) [] (warpDo spread) (fun J => inside J && !J.st.lockHeld 0 (lockOf 124)),
      [Instr.vsatom 4 3 5 0, .vscas 4 3 5].all (fun i => met i [] (lane31Locks 0xFFFF) (fun J => inside J && J.st.lockHeld 0 (lockOf 4) &&
        !J.st.lockHeld 0 (lockOf 8) && J.frag.latch.isNone)),
      met (.vldl 4 3 0) [] (warpDo spread) (fun J => inside J && lateLanes J == 0),
      met (.vldl 4 3 0) [] (lane31Locks 0xFFFF) (fun J => inside J && lateLanes J == 2 && J.active == 0xFFFF),
      met (.vldl 4 3 0) [] (lane31Locks 2) (fun J => inside J && lateLanes J == 2 && J.active == 2),
      met (.vstul 4 3 0) [] (warpDo spread) inside,
      met .nop [] id (fun J => !isOk (J.spadLanes 4 [(0, 65532), (1, 65534)]) && isOk (J.spadLanes 4 [(0, 65532)]) &&
        !isOk (J.spadLanes 4 [(0, 2)]) && !isOk (J.spadLanes 4 [(0, -4)]))]) = true := by decide +kernel

/-- An update of entry 6 under way, which core 0 has taken. -/
def updating6 : State → State := ctxDo (fun c => { c with updating := [{ stamp := 9, n := 6, word := 0x8003FAF1, cores := [0] }] })

theorem witness_FormatInstructions :
    every [
      runs (.fmtget 15 1),
      runs (.fmtchk 0 1),
      met (.fmtset 6 1) [] (warpDo (fun w => w.setS 1 0x8003FAF1)) (fun J => fmtLegal (J.view.getS 1) && J.ctx.updating.isEmpty),
      runs (.fmtset 5 1),
      met (.fmtset 15 1) [] id (fun J => !fmtLegal (J.view.getS 1)),
      met (.fmtset 6 1) [] (fun s => updating6 (warpDo (fun w => w.setS 1 0x8003FAF1) s)) (fun J => fmtLegal (J.view.getS 1) &&
        (J.ctx.updating.find? (fun u => u.n == 6)).isSome),
      ((fixture .nop [] updating6).ctx? 0 0).elim false (fun c => (c.updating.find? (fun v => v.n == 6)).isSome &&
        (fixture .nop [] updating6).grids.all (fun g => !g.installing.contains 9)),
      (fixture .nop [] updating6).warps.all (fun w => ((fixture .nop [] updating6).group? w.group).any (fun g => g.part == 0 && g.ctx == 0))]
      = true := by decide +kernel

theorem witness_Conversions :
    every [
      met (.vcvt 2 4 1 0) [] id (fun J => fmtLegal (J.ctx.entry 0) && fmtLegal (J.ctx.entry 1)),
      met (.vcvt 2 4 0 1) [] id (fun J => (Fmt.ofWord (J.ctx.entry 1)).width != 64 || (Fmt.ofWord (J.ctx.entry 0)).width == 64 ||
        fmtLegal (J.ctx.entry 0)),
      met (.vcvto 2 4 1 0) [] id (fun J => fmtLegal (J.ctx.entry 0) && fmtLegal (J.ctx.entry 1)),
      [Instr.vcvt 2 4 0 6, .vcvto 2 4 0 6, .vcvts 2 4 0 6].all (fun i => comesTo i id (fun K => !fmtLegal (K.ctx.entry 6))),
      [Instr.vcvt 2 4 6 1, .vcvto 2 4 6 1, .vcvts 2 4 6 1].all (fun i => comesTo i id (fun K => fmtLegal (K.ctx.entry 1) && !fmtLegal (K.ctx.entry 6))),
      [Instr.vcvt 2 5 1 0, .vcvto 2 5 1 0, .vcvts 2 5 1 0].all (fun i => comesTo i id (fun K => fmtLegal (K.ctx.entry 0) &&
        fmtLegal (K.ctx.entry 1) && (Fmt.ofWord (K.ctx.entry 0)).width == 64)),
      [Instr.vcvt 3 4 0 1, .vcvto 3 4 0 1].all (fun i => comesTo i id (fun K => fmtLegal (K.ctx.entry 1) && fmtLegal (K.ctx.entry 0) &&
        (Fmt.ofWord (K.ctx.entry 1)).width != 64 && (Fmt.ofWord (K.ctx.entry 0)).width == 64)),
      comesTo (.vcvts 2 4 1 1) id (fun K => fmtLegal (K.ctx.entry 1) && (Fmt.ofWord (K.ctx.entry 1)).scaled == 0),
      [(3, 4), (2, 3), (2, 127), (127, 2)].all (fun r => comesTo (.vcvts r.1 r.2 6 1) (ctxDo (fun c => { c with fmt := c.fmt.setIfInBounds 0 0x13000825 }))
        (fun K => fmtLegal (K.ctx.entry 6) && (Fmt.ofWord (K.ctx.entry 6)).block == 64 && (Fmt.ofWord (K.ctx.entry 6)).scaled != 0)),
      [16, 32, 64].all (fun b => [6, 7, 8].any (fun g => met (.vcvts 2 4 (BitVec.ofNat 4 g) 1) [] (ctxDo (fun c =>
          { c with fmt := Vector.ofFn (fun i => [0x03000825, 0x0B000825, 0x13000825].getD i.val 0) })) (fun J =>
        (Fmt.ofWord (J.ctx.entry g)).block == b && (illegalEntry J.ctx 1 g).isNone && (scaleChecks J.ctx 2 4 (BitVec.ofNat 4 g) 1).isNone)))]
      = true := by decide +kernel

theorem witness_BudgetsAndRecipes :
    (let body : Word := (Sys2Proof.encode (.vadd 1 2 3 0)).getD 0
     let after := fun (w : Word) (s : State) => { s with mem := memSetNat s.mem 0x100004 4 w.toNat }
     let slot := fun (x : Slot) => warpDo (fun w => w.setSlot 0 x)
     let defined : Slot := { Slot.none with state := .defined, body := [body] }
     let live : Slot := { defined with state := .live, vd := 1 }
     every [
      met (.rgclm 1 0) [] id (fun J => decide (min 0 (16 - J.warp.budget) = 0)),
      met (.rgclm 1 2) [] id (fun J => decide (min 2 (16 - J.warp.budget) ≠ 0) && (J.st.tryClaim J.warp (min 2 (16 - J.warp.budget))).2),
      met (.rgclm 1 8) [] (fun s => groupDo (fun g => { g with places := g.places.map (fun p => { p with granules := 0 }) })
          (warpDo (fun w => { w with budget := 8 }) s)) (fun J => decide (8 ≤ 16 - J.warp.budget)),
      runs (.rggiv 1 16),
      runs (.rgqry 1),
      met (.rdef 0 0) [] (after body) (fun J =>
        (match J.sealed 0 with
          | .ok s => (match (J.at s).fetchWords ((J.at s).frag.pc + 4) 1 with | .ok b => (bodyFault b).isNone | .error _ => false)
          | .error _ => false)),
      met (.rdef 0 0) [] (after ((Sys2Proof.encode .nop).getD 0)) (fun J =>
        (match J.sealed 0 with
          | .ok s => (match (J.at s).fetchWords ((J.at s).frag.pc + 4) 1 with
            | .ok b => (match bodyFault b with | some (.inr _) => true | _ => false)
            | .error _ => false)
          | .error _ => false)),
      met (.rtag 1 0) [] id (fun J => (J.warp.slot? 0).state == .empty),
      met (.rtag 1 0) [] (slot defined) (fun J => (J.warp.slot? 0).state != .empty &&
        (match J.sealed 0 with
          | .ok s => (match (J.at s).tagChecks 1 0 with
            | .ok T => (match replayReads J.agent J.ref.warp ((J.at s).warp.taggedAmong T.inputs) s T.inputs with
              | .ok s => (match evalWords { agent := J.agent, ctx := J.ctx, warp := (J.at s).view, mask := J.active, fz := J.ctx.cfg.getLsbD 0 } s { s := [], v := [] } 0 T.ops with
                | .ok (s₂, t, fl) => isOk ((J.at s₂).tag 1 0 T (resultOf t J.active T.ops) fl)
                | .error _ => false)
              | .error _ => false)
            | .error _ => false)
          | .error _ => false)),
      met (.rseal 1) [] id (fun J => (J.warp.tagOf 1).isNone),
      met (.rseal 1) [] (slot live) (fun J => J.warp.tagOf 1 == some 0 && isOk (sealSlot J.agent J.ref.warp [] J.st 0)),
      met (.rdrop 1) [] id (fun J => (J.warp.tagOf 1).isNone),
      met (.rdrop 1) [] (slot live) (fun J => J.warp.tagOf 1 == some 0 && (J.warp.slot? 0).state == .live),
      met (.rdrop 1) [] (slot { live with state := .dropped }) (fun J => J.warp.tagOf 1 == some 0 && (J.warp.slot? 0).state != .live),
      met (.rfree 0) [] (slot defined) (fun J => isOk (J.sealed 0))]) = true := by decide +kernel

/-! ### Witnesses: class 0xA -/

/-- A kernel with one queue of four slots that every role may use, and one barrier of the epilogue role, or of the copy and
epilogue roles. -/
def queueKd : KernelDesc := { wordKernel with queues := [0x3F04], bars := [0x84], warps := [(0, 8), (0, 8), (1, 64)] }
def sharedKd : KernelDesc := { queueKd with bars := [0x85], warps := [(1, 8), (0, 8), (1, 64)] }

/-- The kernel of the one grid, with the images that a placement writes. -/
def kit (kd : KernelDesc) (s : State) : State :=
  groupDo (fun g => { g with places := g.places.map (fun p => { p with spad := kd.freshSpad, tiles := kd.tileStore }), roles := kd.freshRoles })
    (kernelDo (fun _ => kd) s)

/-- The scratchpad changed. -/
def spadDo (f : List Host.Cell → List Host.Cell) : State → State :=
  groupDo (fun g => { g with places := g.places.map (fun p => { p with spad := f p.spad }) })

/-- The queue with a slot in a state, its handle zero, and a reserved or taken slot 0. -/
def slotIs (n x : Nat) : State → State := spadDo (fun m => putRing m 0 ((ringAt m 0).setSlot n x))

theorem witness_QueuesMoveWork :
    every [
      met (.qpush 0 1) [] (kit queueKd) (fun J =>
        (match J.release J.st J.group.scope with
          | .ok s => (QueueOp.push (J.view.getS 1)).ready (({ J.at s with view := J.view } : Issue).queueRing 0) 4
          | .error _ => false) &&
        (J.queueCheck 0 [8]).isNone && queueDepth (J.grid.kd.queueCfg 0) == 4 && decide ((J.view.getS 1).toNat % 2 ^ 17 * 64 < J.grid.kd.sp * 65536)),
      met (.qpop 0 2) [] (fun s => slotIs 0 2 (kit queueKd s)) (fun J => (J.queueCheck 0 [11]).isNone && (QueueOp.pop 2).ready (J.queueRing 0) 4),
      met (.qtry 0 2) [] (fun s => slotIs 0 2 (kit queueKd s)) (fun J => (J.queueCheck 0 [11]).isNone && (QueueOp.pop 2).ready (J.queueRing 0) 4),
      met (.qtry 0 2) [] (kit queueKd) (fun J => (J.queueCheck 0 [11]).isNone && !(QueueOp.pop 2).ready (J.queueRing 0) 4),
      met (.qrsv 0 2) [] (kit queueKd) (fun J => (J.queueCheck 0 [8]).isNone && (QueueOp.reserve 2).ready (J.queueRing 0) 4),
      met (.qcmt 0 2) [] (fun s => slotIs 3 1 (warpDo (fun w => w.setS 3 3) (kit queueKd s))) (fun J =>
        (J.queueCheck 0 [8]).isNone && (J.view.getS 3).toNat == 3 && (J.queueRing 0).slot 3 == 1 &&
        isOk (J.release J.st J.group.scope)),
      met (.qrel 0 2) [] (fun s => slotIs 0 3 (kit queueKd s)) (fun J => (J.queueCheck 0 [11]).isNone && (J.queueRing 0).slot 0 == 3),
      met (.qlen 0 2) [] (kit queueKd) (fun J => (J.queueCheck 0 [8, 11]).isNone),
      met (.qpop 0 2) [] (kit sharedKd) (fun J => (J.queueCheck 0 [11]).isNone && !(QueueOp.pop 2).ready (J.queueRing 0) 4 &&
        !J.st.orphaned J.group.uid J.warp.pos 0 false),
      met (.qpush 0 1) [] (fun s => slotIs 0 1 (kit sharedKd s)) (fun J =>
        (match J.release J.st J.group.scope with
          | .ok s => !(QueueOp.push (J.view.getS 1)).ready (({ J.at s with view := J.view } : Issue).queueRing 0) 4 &&
            !s.orphaned J.group.uid J.warp.pos 0 true
          | .error _ => false) && (J.queueCheck 0 [8]).isNone && decide ((J.view.getS 1).toNat % 2 ^ 17 * 64 < J.grid.kd.sp * 65536)),
      met (.qrsv 0 2) [] (fun s => slotIs 0 1 (kit sharedKd s)) (fun J => (J.queueCheck 0 [8]).isNone &&
        !(QueueOp.reserve 2).ready (J.queueRing 0) 4 && !J.st.orphaned J.group.uid J.warp.pos 0 true),
      met (.qrsv 0 2) [] (fun s => slotIs 0 1 (kit { queueKd with queues := [0xC04] } s)) (fun J => (J.queueCheck 0 [8]).isNone &&
        !(QueueOp.reserve 2).ready (J.queueRing 0) 4 && J.st.orphaned J.group.uid J.warp.pos 0 true),
      met (.qpop 0 2) [] (kit { queueKd with queues := [0x2104] }) (fun J => (J.queueCheck 0 [11]).isNone &&
        !(QueueOp.pop 2).ready (J.queueRing 0) 4 && J.st.orphaned J.group.uid J.warp.pos 0 false),
      met (.qpush 1 1) [] (kit queueKd) (fun J => J.grid.kd.queues.getD 1 0 == 0),
      met (.qpush 0 1) [] (kit { queueKd with queues := [0x804] }) (fun J => (J.grid.kd.queues.getD 0 0).toNat.testBit (8 + roleNat J.warp.role) == false),
      met (.qpush 0 1) [] (fun s => spadDo (fun m => memSetNat m 0 4 5) (kit queueKd s)) (fun J =>
        ringMalformed J.queueSpad (J.queueBase 0) (J.grid.kd.queues.getD 0 0).toNat)] = true := by decide +kernel

/-- The image of a barrier changed. -/
def barDo (f : Bar → Bar) (s : State) : State := s.setBar 0 0 (f (s.barOf 0 0))

theorem witness_BarrierPhases :
    every (let s := (barDo (fun x => { x with mem := 1, arr := 1, join := 2, pseq := 0xFFFFFFFF }) (fixture .nop [] (kit queueKd)));
      [
      (s.group? 0).elim false (fun g => g.uid == 0 && decide (0 < g.span) && !g.isBroken 0),
      (s.barOf 0 0).arr == (s.barOf 0 0).mem && (s.barOf 0 0).rcv == (s.barOf 0 0).exp,
      ((barDo (fun x => { x with exp := 1 }) s).barOf 0 0).exp == 1,
      ((barDo (fun x => { x with rcv := 1 }) s).barOf 0 0).rcv == 1,
      ((barDo (fun x => { x with arr := 0 }) s).barOf 0 0).arr == 0]) = true := by decide +kernel

/-- The conditions of an arrival. -/
def mayArrive (J : Issue) : Bool :=
  (J.barrierCheck 0).isNone && !J.group.isBroken 0 && !J.outsideRoles 0 && !J.warp.pending.getLsbD 0 && !J.doubleArrival 0 &&
    isOk (J.release J.st J.group.scope)

/-- What a `BSYNC` finds after its arrival: whether the phase that it is in is over. -/
def overAfterArrival (J : Issue) (done : Bool) : Bool :=
  mayArrive J &&
    (match J.release J.st J.group.scope with
      | .error _ => false
      | .ok s =>
        let K := J.at ((s.arrive J.ref.warp 0 J.frag.lanes).testBarrier J.group.uid 0)
        !K.group.isBroken 0 && (((K.st.barOf K.group.uid 0).pseq.testBit 0 != J.warp.wpar.getLsbD 0) == done))

/-- A `BSYNC` whose arrival was made with the parities `wpar`. -/
def hasArrived (wpar : BitVec 16) : State → State := fragDo (fun f => { f with arrived := some wpar })

theorem witness_BarrierInstructions :
    every [
      met (.barv 0) [] (kit queueKd) mayArrive,
      met (.barx 0 1 0) [] (kit queueKd) mayArrive,
      met (.barx 0 1 0) [] (fun s => warpDo (fun w => w.setS 1 64) (kit queueKd s)) mayArrive,
      met (.barx 0 1 1) [] (kit queueKd) (fun J => (J.barrierCheck 0).isNone && !J.group.isBroken 0 &&
        isOk (J.release J.st J.group.scope)),
      met (.barw 0 1 1) [] (fun s => warpDo (fun w => w.setPar 0 true) (kit queueKd s)) (fun J =>
        (J.barrierCheck 0).isNone && (J.st.barOf 0 0).pseq.testBit 0 != J.warp.wpar.getLsbD 0),
      met (.barw 0 1 0) [] (fun s => warpDo (fun w => w.setS 1 1) (kit queueKd s)) (fun J => (J.barrierCheck 0).isNone &&
        (J.st.barOf 0 0).pseq.testBit 0 != (J.view.getS 1).getLsbD 0),
      met (.barw 0 1 0) [] (kit queueKd) (fun J => (J.barrierCheck 0).isNone && (J.st.barOf 0 0).pseq.testBit 0 == (J.view.getS 1).getLsbD 0),
      met (.barw 0 1 1) [] (kit queueKd) (fun J => (J.barrierCheck 0).isNone && !J.group.isBroken 0 &&
        (J.st.barOf 0 0).pseq.testBit 0 == J.warp.wpar.getLsbD 0),
      met (.bsync 0) [] (kit queueKd) (fun J => J.frag.arrived.isNone && overAfterArrival J true),
      met (.bsync 0) [] (kit sharedKd) (fun J => J.frag.arrived.isNone && overAfterArrival J false),
      [(0, false), (1, true)].all (fun p => met (.bsync 0) [] (fun s => hasArrived p.1 (kit queueKd s)) (fun J =>
        J.frag.arrived == some p.1 && (J.barrierCheck 0).isNone && !J.group.isBroken 0 && !J.outsideRoles 0 &&
        ((J.st.barOf 0 0).pseq.testBit 0 != p.1.getLsbD 0) == p.2)),
      met (.bphase 0 2) [] (kit queueKd) (fun J => (J.barrierCheck 0).isNone),
      met (.binit 0 1) [] (fun s => warpDo (fun w => w.setS 1 7) (kit queueKd s)) (fun J => (J.barrierCheck 0).isNone && !J.st.barBusy 0 0),
      met (.barv 1) [] (kit queueKd) (fun J => J.grid.kd.barrierCfg 1 == 0)] = true := by decide +kernel

/-- Feature 4 latched, mailbox 5 configured with messages, and access to it. -/
def boxes (cfg : Word) (msgs : List MboxMsg) (s : State) : State :=
  { s with flatch := 0x1F, mboxes := [{ m := 5, cfg := cfg, msgs := msgs }],
           acc := s.acc ++ [{ target := 84, entry := 0, word := BitVec.ofNat 128 (0xFF * 2 ^ 72 + 0x8027) }] }
def message (receivable : Bool) : MboxMsg :=
  { tag := 7, w1 := 1, w2 := 2, w3 := 3, part := 0, ctx := 0, since := 0, receivable := receivable }

/-- A link in a state, with its permits. -/
def linkIs (l : LinkState) (n : Nat) (s : State) : State :=
  { s with links := s.links.setIfInBounds n { Link.reset 0 with state := l, permits := permitTable n, far := permitTable n } }

/-- Whether the mailbox 5 is found, on the other die or on this one, and a message can cross to it and its answer back. -/
def boxIs (far go : Bool) (s : State) : Bool :=
  (s.mbox? 5).any (fun b => away 0 (dieKey (b.home / 32)) == far && s.exchanges 0 3 (dieKey (b.home / 32)) == go)

/-- Whether a receive comes to an open mailbox 5, of which `p` holds. -/
def receives (p : Mailbox → Bool) (J : Issue) : Bool :=
  J.st.feature 4 && J.st.accAllows 84 J.agent.master 5 false && (J.st.mbox? 5).any p

theorem witness_Mailboxes :
    every [
      met (.mbsend 4 5) [] id (fun J => match J.release J.st 4 with | .ok s => J.sendStatus s 5 == 4 | _ => false),
      [(0xB0000003, false), (0xB8000003, true)].all (fun x => met (.mbsend 4 5) [] (boxes x.1 []) (fun J => match J.release J.st 4 with
        | .ok s => J.sendStatus s 5 == 0 && boxIs x.2 true s | _ => false)),
      met (.mbsend 4 5) [] (fun s => linkIs .down 0 (boxes 0xB8000003 [] s)) (fun J => match J.release J.st 4 with
        | .ok s => J.sendStatus s 5 == 0 && boxIs true false s | _ => false),
      met (.mbrecv 4 5) [] id (fun J => !J.st.feature 4),
      met (.mbrecv 4 5) [] (fun s => { s with flatch := 0x1F }) (fun J => J.st.feature 4 && !J.st.accAllows 84 J.agent.master 5 false),
      met (.mbrecv 4 5) [] (boxes 0x30000003 []) (receives (fun b => !b.en)),
      met (.mbrecv 4 5) [] (fun s => linkIs .down 0 (boxes 0xB8000003 [] s)) (fun J => receives Mailbox.en J && boxIs true false J.st),
      [(0xB0000003, false), (0xB8000003, true)].all (fun x => [false, true].all (fun r => met (.mbrecv 4 5) [] (boxes x.1 [message r]) (fun J =>
        receives (fun b => b.en && b.msgs == [message r]) J && boxIs x.2 true J.st)))] = true := by decide +kernel

/-- What an instruction keeps that waits for a lock. -/
def latched : Option Latch := (fixture (.vsatom 4 3 5 0) [] id).issuer.map (fun I => I.latch (.vsatom 4 3 5 0) (.lock [0]))

theorem witness_GroupsAndLaunches :
    every [
      met (.ggrow 1 0 2 200) [] (fun s => { s with flatch := 0x1F }) (fun J => J.mayGrow 2),
      runs (.ggrow 1 1 2 0),
      met .gleave [] id (fun J => !J.warp.othersAct J.ref.frag && isOk (J.release J.st J.group.scope)),
      met .gleave [] (warpDo (fun w => { w with frags := w.frags ++ [{ Frag.fresh 1 (some 1) 1 0 with wait := .lock [0], latch := latched }] }))
        (fun J => J.warp.othersAct J.ref.frag),
      [0, 1, 2, 3, 4].all (fun e => runs (.ginfo 1 e)),
      [0, 1].all (fun e => met (.sigadd 4 e) [] id (fun J => decide ((J.view.getPair 4).toNat % 8 = 0) &&
        decide ((J.view.getPair 4).toNat < 2 ^ 57) &&
        goesNow (J.st.settle J.agent (J.pointer (J.view.getPair 4).toNat 8 true) J.visitAtomic true false) (fun s =>
          let reqs := (performLanes (J.pointer (J.view.getPair 4).toNat 8 true)).map (fun p =>
            { lane := p.1, key := p.2.2, size := 8, op := if e = (1 : BitVec 1) then 9 else 0, b := J.view.getPair 6, cmp := none,
              va := p.2.1 : AtomReq })
          goesNow (J.release s (J.atomicScope J.allLanes reqs)) (fun s => isOk (s.atomicAfter J.warp.core reqs))) &&
        !anyAway (dieOf J.warp.core) ((performLanes (J.pointer (J.view.getPair 4).toNat 8 true)).map (fun p => p.2.2)))),
      [0, 1].all (fun e => met (.sigwait 4 e) [] id (fun J =>
        (match J.st.settle J.agent (J.pointer (J.view.getPair 4).toNat 8 false) J.visitLoad false true with | .ok s => decide (s = J.st) | _ => false) &&
        decide ((J.view.getPair 6).toNat ≤ laneNat (J.st.loadLanes J.agent 8 (J.pointer (J.view.getPair 4).toNat 8 false)) 0))),
      met (.sigwait 4 0) [] (warpDo (fun w => w.setS 6 1)) (fun J =>
        (match J.st.settle J.agent (J.pointer (J.view.getPair 4).toNat 8 false) J.visitLoad false true with | .ok s => decide (s = J.st) | _ => false) &&
        decide (laneNat (J.st.loadLanes J.agent 8 (J.pointer (J.view.getPair 4).toNat 8 false)) 0 < (J.view.getPair 6).toNat)),
      met (.sigadd 4 0) [] (warpDo (fun w => w.setS 4 4)) (fun J => (J.view.getPair 4).toNat % 8 == 4)] = true := by decide +kernel

/-- A submission queue 1 of four entries, and a barrier packet at 0x200000, or a packet of no kind. The second GiB of virtual addresses
is that of die 1. -/
def launches (base : Nat) (word : Nat) (s : State) : State :=
  let s := ctxDo (fun c => { c with queues := [{ SubQueue.none 1 with base := BitVec.ofNat 64 base, cfg := 0xA0000002 }] }) s
  warpDo (fun w => w.setS 4 0x200000)
    { s with mem := memSetNat (memSetNat s.mem 0x200000 4 word) 0x3008 8 0x300000001D, acc := (List.range 72).map wordAcc }

/-- The conditions of a launch, its status, and whether its entry crosses at once. -/
def launchIs (st : Nat) (go : Bool) (J : Issue) : Bool :=
  goesNow (J.release J.st 3) (fun s₁ =>
    let K : Issue := { J.at s₁ with view := J.view }
    let src := K.pointer (vaMask (J.view.getPair 4).toNat) 64 false
    decide ((J.view.getPair 4).toNat % 64 = 0) &&
      goesNow (s₁.settle K.agent src { core := K.warp.core, scope := 0, promotes := false } false true) (fun s₂ =>
        let p := BitVec.ofNat 512 (laneNat (s₂.loadLanes K.agent 64 src) 0)
        let q := K.ctx.queueOr 1
        let K₂ : Issue := { K.at s₂ with view := J.view }
        let ring := K₂.pointer (q.entryAt q.wptr.toNat) 64 true
        launchStatus q p == st &&
        goesNow (s₂.settle K₂.agent ring { core := K₂.warp.core, scope := 3, promotes := false } true false) (fun s₃ =>
          ((performLanes ring).find? (fun l => !s₃.exchanges 0 1 l.2.2)).isNone == go &&
          (!go || (let put := (performLanes ring).foldl (fun (s : State) l =>
              { s.exchange K₂.sender 1 l.2.2 with mem := memWrites s.mem l.2.2 (bytesLE 64 p.toNat) }) s₃
            (put.ctxOf K₂.group).isSome)))))

theorem witness_launches :
    every [
      met (.klaunch 4 1) [] (launches 0x300000 0) (launchIs 0 true),
      met (.klaunch 4 1) [] (launches 0x40000000 0) (fun J => launchIs 0 true J &&
        anyAway 0 ((performLanes (J.pointer ((J.ctx.queueOr 1).entryAt 0) 64 true)).map (fun p => p.2.2))),
      met (.klaunch 4 1) [] (fun s => linkIs .down 0 (launches 0x40000000 0 s)) (launchIs 0 false),
      met (.klaunch 4 1) [] (launches 0x300000 2) (launchIs 3 true)] = true := by decide +kernel
/-! ### Witnesses: classes 0x8 and 0x9 -/

/-- A kernel with tiles 0 and 1 of eight rows and columns, binary32, and barrier 0 of every role. -/
def tileKd : KernelDesc := { wordKernel with tiles := [0x10101, 0x10101], bars := [0x87], warps := [(0, 8), (0, 8), (0, 64)] }

/-- An operand descriptor of eight rows or columns and K = 8, of format entry 1. -/
def operandAt1 : Dword := 1 <<< 17

/-- Two pairs of operand descriptors. -/
def withOperands (mcm : Nat) : State → State := warpDo (fun w => (w.setPair 2 (operandAt1 + BitVec.ofNat 64 (mcm * 2 ^ 56))).setPair 4 operandAt1)

/-- An operation of another warp on the engine of core 0. -/
def otherOp (warp t : Nat) (kind : TileKind) : TileOp :=
  { uid := 0, warp := warp, group := 0, from_ := 0, t := t, gang := 0, kind := kind, members := [(0, 0)] }
def queuedOp (o : TileOp) (s : State) : State := { s with engines := [o], fresh := s.fresh + 1 }

def roomHere (J : Issue) : Bool := decide ((J.st.engineOps (J.group.coreAt 0)).length < 16) && decide (J.warp.pos = 0)
def named0 (J : Issue) : Bool := (J.tileNamed 0).elim false (fun N => N.word == 0 && !J.outsideGang N.word) && roomHere J

/-- The same kernel on two cores, with both tiles ganged by a word, here 1 by 2. -/
def twoCores : State → State := groupDo (fun g => { g with places := g.places.flatMap (fun p => [p, { p with core := 1 }]) })
def ganged (word : Nat) : State → State := groupDo (fun g => { g with places := g.places.map (fun p =>
  { p with tiles := [0, 1].foldl (fun m t => (tileKd.tile? t).elim m (fun T => memSetNat m (T.base + 12) 4 word)) p.tiles }) })
def gang2 (s : State) : State := ganged 72 (twoCores (kit tileKd s))

def roomAt (J : Issue) (ps : List Nat) : Bool := ps.all (fun p => decide ((J.st.engineOps (J.group.coreAt p)).length < 16))
def named2 (J : Issue) : Bool :=
  (J.tileNamed 0).elim false (fun N => N.word == 72 && !J.outsideGang N.word && (J.gangOf 72).parts == [0, 1]) && roomAt J [0, 1]

/-- Whether the checks of a multiply on tile 0 with the operands of pairs 2 and 4 pass. -/
def multiplies (J : Issue) (smx multi : Bool) : Bool :=
  (J.tileNamed 0).elim false (fun N =>
    (J.multiplyCheck N (Operand.of (J.view.getPair 2)) (Operand.of (J.view.getPair 4)) smx multi).isNone)

theorem witness_TileInstructions :
    every [
      met (.tmma 0 2 4 0) [] (fun s => withOperands 0 (gang2 s)) (fun J => named2 J && multiplies J false false),
      met (.tmma 0 2 4 4) [] (fun s => withOperands 0 (gang2 s)) (fun J => named2 J && multiplies J true false),
      met (.tmmax 0 2 4 0) [] (fun s => withOperands 0 (gang2 s)) (fun J => named2 J && multiplies J false true),
      met (.tmmax 0 2 4 0) [] (fun s => withOperands 0 (kit tileKd s)) (fun J => named0 J && multiplies J false true),
      met (.tmmax 0 2 4 0) [] (fun s => withOperands 3 (twoCores (kit tileKd s))) (fun J => named0 J && roomAt J [0, 1] && multiplies J false true),
      met (.tsmx 0 2 4) [] (fun s => warpDo (fun w => w.setS 2 1) (gang2 s)) (fun J => named2 J &&
        (J.tileNamed 1).elim false (fun N => N.word == 72 && N.tile.rows == 8 && N.tile.acc == 1)),
      [Instr.tzero 0, .tfill 0 2, .tscale 0 2 4, .tsidew 0 2 4].all (fun i => met i [] gang2 named2),
      [1, 2].all (fun y => met (.tscale 0 2 4) [] (fun s => warpDo (fun w => w.setS 4 y) (gang2 s)) (fun J => named2 J && J.view.getS 4 == y)),
      met (.tgang 0 2) [] gang2 (fun J => named2 J && !J.frag.granted && J.view.getS 2 == 0),
      [Instr.tsider 0 2 4, .tamaxr 0 2].all (fun i => met i [] (fun s => queuedOp (otherOp 0 0 .zero) (kit tileKd s)) (fun J =>
        named0 J && J.st.tileBusy J.warp 0 false false J.st.fresh && J.st.tileBusy J.warp 0 false true J.st.fresh && !J.frag.granted)),
      met (.tmma 0 2 4 0) [] (fun s => withOperands 0 (kit tileKd s)) (fun J => named0 J && multiplies J false false),
      met (.tmma 0 2 4 4) [] (fun s => withOperands 0 (kit tileKd s)) (fun J => named0 J && multiplies J true false),
      met (.tmmax 0 2 4 0) [] (fun s => withOperands 1 (kit tileKd s)) (fun J => named0 J && multiplies J false true),
      met (.tzero 0) [] (kit tileKd) named0,
      met (.tfill 0 2) [] (kit tileKd) named0,
      met (.tscale 0 2 4) [] (kit tileKd) (fun J => named0 J && J.view.getS 4 == 0),
      met (.tsidew 0 2 4) [] (fun s => warpDo (fun w => w.setS 4 0xFFFFFFFF) (kit tileKd s)) named0,
      met (.tsidew 0 2 4) [] (fun s => warpDo (fun w => w.setS 4 7) (kit tileKd s)) named0,
      met (.tsmx 0 2 4) [] (fun s => warpDo (fun w => w.setS 2 1) (kit tileKd s)) (fun J => named0 J &&
        (J.tileNamed 1).elim false (fun N => N.word == 0 && N.tile.rows == 8 && N.tile.acc == 1)),
      met (.tdrain 0 2 4) [] (fun s => warpDo (fun w => w.setPair 2 (7 <<< 40)) (kit tileKd s)) (fun J => named0 J &&
        (J.tileNamed 0).elim false (fun N =>
          let d := Drain.of (J.view.getPair 2)
          let f := Fmt.ofWord (J.ctx.entry d.fmt)
          decide (d.rnd ≤ 5) && fmtLegal (J.ctx.entry d.fmt) && decide (d.end_ N.tile f 0 ≤ J.grid.kd.sp * 65536) &&
          d.rows % 8 == 0 && d.row0 % 8 == 0 && decide (d.row0 + d.rows ≤ N.tile.rows) && f.scaled == 0)),
      met (.twait 0) [] (kit tileKd) (fun J => named0 J && !J.st.tileBusy J.warp 0 true true J.st.fresh),
      met (.twait 0) [] (fun s => queuedOp (otherOp 0 0 .zero) (kit tileKd s)) (fun J => named0 J && J.st.tileBusy J.warp 0 true true J.st.fresh &&
        !J.frag.granted),
      [0, 1].all (fun sel => met (.tsider 0 2 4) [] (fun s => warpDo (fun w => (w.setS 4 7).setS 5 sel) (kit tileKd s)) (fun J =>
        named0 J && !J.st.tileBusy J.warp 0 false true J.st.fresh && J.view.getS 5 == sel)),
      met (.tamaxr 0 2) [] (kit tileKd) (fun J => named0 J && J.st.engines.all (fun o => !o.names 0)),
      met (.tgang 0 2) [] (fun s => warpDo (fun w => w.setS 2 64) (kit tileKd { s with flatch := 0x1F })) (fun J => named0 J && J.st.feature 2 &&
        !J.frag.granted && (Gang.of 64 0).gr * (Gang.of 64 0).gc == 1),
      met (.tgang 0 2) [] (fun s => fragDo (fun f => { f with granted := true }) (kit tileKd s)) (fun J => named0 J && J.frag.granted),
      runs .tfence,
      met (.tzero 2) [] (kit tileKd) (fun J => (J.tileNamed 2).isNone),
      ((queuedOp (otherOp 0 0 .zero) (fixture .nop [] (kit tileKd))).tileDue 0).elim false (fun o => o.uid == 0 && !o.isDrain),
      ((fixture .nop [] (kit tileKd)).tileDue 0).isNone] = true := by decide +kernel

theorem witness_TileEffects :
    every [
      (tileKd.tile? 0).elim false (fun T => T.rows == 8 && T.cols == 8),
      [TileKind.zero, .fill 5, .scale 0x40000000 0 0 0, .gang 64, .mma 0 0 0 0 0 false (some 0) (some 0)].all (fun k =>
        !(otherOp 0 0 k).isDrain && (otherOp 0 0 k).members == [(0, 0)] && (otherOp 0 0 k).gang == 0),
      decide (0 < wordGroup.places.length)] = true := by decide +kernel

/-- A record of eight elements of 16 bytes at 0x200000, in `d1` and `d2`. -/
def rowRecord : BitVec 128 := ({ clmp := false, imm := false, ro := false, swz := 0, base := 0x200000, esz := 4, str := 0, ext := 8 } : Buf).word
def wordRecord : BitVec 128 := ({ clmp := false, imm := false, ro := false, swz := 0, base := 0x200000, esz := 2, str := 0, ext := 64 } : Buf).word
def rowRecords (s : State) : State := warpDo (fun w => ((w.setD 1 rowRecord).setD 2 rowRecord).setD 3 rowRecord) (kit tileKd s)
def wordRecords (s : State) : State := warpDo (fun w => w.setD 1 wordRecord) (kit tileKd s)

/-- Whether the walks of a copy's elements send nothing that cannot cross. -/
def walksGo (J : Issue) (a : CopyAsk) : Bool := isOk (J.st.sendWalks J.copyAgent a.access ((J.copyXlats a).map (fun x => x.2.1)))

/-- The conditions of acceptance. -/
def accepts (k : CopyKind) (n : BitVec 4) (J : Issue) : Bool :=
  let a := J.copyAsk k n 4 8
  decide ((J.st.copies.filter (fun x => x.core == J.warp.core)).length < 32) && J.grid.kd.barrierCfg 0 != 0 && (J.copyCheck a n.toNat).isNone &&
    (J.copyXlats a).all (fun x => match x.2.2 with | .ok _ => true | _ => false) && walksGo J a

/-- A copy in the unit of core 0, of warp 0. -/
def aCopy (n : Nat) (kind : CopyKind) (running : Bool) : Copy :=
  { uid := n, core := 0, warp := 0, group := 0, part := 0, ctx := 0, grid := 0, kind := kind, barrier := 0, credit := 16, rows := 1,
    rowBytes := 16, soff := 0, swz := 0, load := true, targets := [0], op := 0,
    sides := [{ elem := 16, rows := [[some (0x200000, 0x200000)]] }], pages := [0x200], running := running, sent := false, lines := [],
    owned := 0, asked := none, after := 0, closing := none, from_ := (entry 0 0).from_, refusedLines := [], refusedMask := 0,
    refusedVa := none }
def holding (cs : List Copy) (s : State) : State := { kit tileKd s with copies := cs, fresh := s.fresh + 64 }
def fullUnit : List Copy := (List.range 32).map (fun n => aCopy n .cpy false)

/-- Records of eight elements at a virtual address; the third GiB of addresses is not resident and the fourth is unmapped. -/
def rowsAt (base ext : Nat) (s : State) : State :=
  let r : BitVec 128 := ({ clmp := false, imm := false, ro := false, swz := 0, base := base, esz := 4, str := 0, ext := ext } : Buf).word
  warpDo (fun w => ((w.setD 1 r).setD 2 r).setD 3 r) (kit tileKd { s with mem := memSetNat s.mem 0x3010 8 2 })

/-- Whether there is room, and what a `CPY` meets: whether its checks pass, its refusal, its waits. -/
def copyMeets (J : Issue) (fine refused waits : Bool) : Bool :=
  let a := J.copyAsk .cpy 1 4 8
  let xs := J.copyXlats a
  decide ((J.st.copies.filter (fun x => x.core == J.warp.core)).length < 32) && J.grid.kd.barrierCfg 0 != 0 &&
    (J.copyCheck a 1).isNone == fine &&
    (!fine || (xs.all (fun x => match x.2.2 with | .nowhere => false | .stalled _ => false | _ => true) &&
      (copyRefusal a.load xs).isSome == refused && (copyWaits a.load J.warp.core xs).isEmpty == !waits && walksGo J a))

theorem witness_CopyInstructions :
    every [
      met (.cpy 1 4 8 0 0) [] (rowsAt 0x200000 0) (fun J => copyMeets J false false false),
      met (.cpy 1 4 8 0 0) [] (rowsAt 0x200004 8) (fun J => copyMeets J false false false),
      met (.cpy 1 4 8 0 0) [] (rowsAt 0xC0000000 8) (fun J => copyMeets J true true false),
      met (.cpy 1 4 8 0 0) [] (rowsAt 0x80000000 8) (fun J => copyMeets J true false true),
      met (.cpy 1 4 8 0 0) [] rowRecords (accepts .cpy 1),
      met (.cpys 1 4 8 0 0) [] rowRecords (accepts .cpys 1),
      met (.cpyt 2 4 8 0 0) [] rowRecords (accepts .cpyt 2),
      met (.cpym 1 4 8 0 0) [] (fun s => warpDo (fun w => w.setS 6 1) (rowRecords s)) (accepts .cpym 1),
      met (.cpyr 1 4 8 0 0) [] wordRecords (accepts .cpyr 1),
      met (.cpyg 1 4 8 0 0) [] rowRecords (accepts .cpyg 1),
      met (.cpyp 1 4 8 0) [] rowRecords (accepts .cpyp 1),
      met (.cpy 1 4 8 0 0) [] (holding fullUnit) (fun J => decide (32 ≤ (J.st.copies.filter (fun x => x.core == J.warp.core)).length)),
      met (.cpy 1 4 8 1 0) [] rowRecords (fun J => J.grid.kd.barrierCfg 1 == 0),
      met .cpyw [] (holding [aCopy 0 .cpyp false]) (fun J => J.st.copies.all (fun c => c.kind == .cpyp)),
      met .cpyw [] (holding [aCopy 0 .cpy false]) (fun J => J.st.copies.any (fun c => decide (c.warp = J.ref.warp) && c.kind != .cpyp)),
      met (.cpyx 2) [] (holding [aCopy 0 .cpy false, aCopy 1 .cpy true, aCopy 2 .cpyp false]) (fun J =>
        (J.st.copies.filter (fun c => c.warp == J.ref.warp && !c.running)).length == 2)] = true := by decide +kernel

/-- The conditions of the completion of a copy: whether it is held before it moves, and whether some of it is outstanding after. -/
def completes (s : State) (n : Nat) (held left : Bool) : Bool :=
  (s.copy? n).elim false (fun c => c.running && !c.sent &&
    (let u := s.performWhere (fun e => e.core == c.core && decide (e.seq < c.after) && c.writtenLines.contains (lineOf e.key));
     (u.olderThanCopy c || u.copyHeld c) == held &&
       (held || (((u.moveCopy c).copy? n).isSome && (u.moveCopy c).copyOutstanding n == left))))

theorem witness_CopyEvents :
    every (let s := fun cs => holding cs (fixture .nop [] id);
      let store : Copy := { aCopy 0 .cpys false with load := false, lines := [0x4000], asked := some 3 };
      let late : Copy := { store with uid := 1, asked := some 1 };
      let away : Copy := { aCopy 0 .cpys true with load := false, sides := [{ elem := 16, rows := [[some (0x200000, 2 ^ 52)]] }] };
      let split := fun (load : Bool) => { aCopy 0 .cpy true with
        rowBytes := 32, load := load, sides := [{ elem := 16, rows := [[some (0x200000, 0x200000), none], [some (0x200020, 0x200020), none]] }], rows := 2 };
      [
      ((s [store, late]).grantee 0x4000).map Copy.uid == some 1,
      ((s []).grantee 0x4000).isNone,
      ((s [aCopy 0 .cpy false]).startable 0).isSome,
      ((s [store]).startable 0).isNone,
      ((s [aCopy 0 .cpy false]).copy? 0).elim false (fun c => !c.running),
      completes (s [aCopy 0 .cpy true]) 0 false false,
      completes (s [away]) 0 false true,
      completes { s [aCopy 0 .cpy true] with hostHeld := [0x4000] } 0 true false,
      [false, true].all (fun left =>
        let t := if left then (s [away]).moveCopy away else s [{ aCopy 0 .cpy true with sent := true }];
        (t.copy? 0).elim false (fun c => c.running && c.sent && t.copyOutstanding 0 == left)),
      (let c := aCopy 0 .cpy true;
        c.kind != .cpyp && c.refusedVa.isNone && (((s [c]).group? c.group).map Group.scope).getD 0 == 0),
      (split true).load && ((split true).sides.head?).elim false (fun x => (x.rows.getD 0 []).length == 2),
      (let c := { split true with refusedLines := [lineOf (2 ^ 53)], sides := [{ elem := 16, rows := [[some (0x200000, 2 ^ 53)]] }] };
        c.refuses (2 ^ 53)),
      (let c := split true;
        let t := s [c];
        (t.group? c.group).elim false (fun g => decide (0 < g.span)) && c.rowBytes % 16 == 0 && c.rowBytes % swizzleSpan c.swz == 0 &&
        (List.range c.rows).all (fun r => (t.copyRow c r).length == c.rowBytes) &&
        c.targets.all (fun p => decide (p < 1) && (List.range 16).all (fun q => [true, false].all (fun b =>
          ((t.moveCopy c).queueLine c.group p q b).isEmpty && (t.queueLine c.group p q b).isEmpty)))),
      (let c := split false;
        let t := s [c];
        (sideCells c.sides).all (fun y => !Machine.away (dieOf c.core) y.2) && !rangesMeet 0x200000 16 0x200020 16 &&
        (List.range c.rows).all (fun r => (t.copyRow c r).length == c.rowBytes))]) = true := by decide +kernel

theorem witness_SwizzledRows :
    every [[(0 : Nat), 1, 2, 3].all (fun z => 256 % swizzleSpan z == 0)] = true := by decide +kernel
/-! ### Witnesses: hints, checks, exceptions, steps -/

theorem witness_HintWords :
    every [
      (fixture (.himm 1) [] id).issuer.elim false (fun I => decide (I.frag.chain.length < 4)),
      (fixture (.himm 1) [.himm 1, .himm 1, .himm 1, .himm 1] id).issuer.elim false (fun I => I.frag.chain.length == 4),
      isOk (chainHints Hints.none [.himm 5]),
      isOk (chainHints Hints.none [.himmx 1, .himm 5]),
      met (.vadd 1 2 3 0) [.hpred 1 0] id (fun J => J.h.pred == some (1, false)),
      met (.vadd 1 2 3 0) [.hpred 1 1] id (fun J => J.h.pred == some (1, true)),
      met (.vadd 1 2 3 0) [] id (fun J => J.h.pred.isNone && J.h.perm.isNone),
      (hintKind (.hpred 1 0) == hintKind (.hpred 2 1)) && (hintKind (.hpred 1 0)).isSome,
      [Instr.hsch 1 0 0 5 0 0 0 0 1 0, .hmod 3 1 0 0 0 0 0 0 0 0 0 0, .hperm 1 2 3 4 5].map (fun i =>
        (hintKind i, (Sys2Proof.encode i).isSome)) == [(some 0, true), (some 3, true), (some 5, true)],
      (fixture (.vadd 1 2 3 0) [] id).issuer.elim false (fun I => I.frag.chain.isEmpty),
      (fixture (.vadd 1 2 3 0) [.hsch 1 0 0 5 0 0 0 0 1 0] id).issuer.elim false (fun I => I.frag.chain == [.hsch 1 0 0 5 0 0 0 0 1 0]),
      (List.range 6).all (fun p => met (.vadd 1 2 3 0) [.hperm (BitVec.ofNat 3 p) 2 (BitVec.ofNat 3 p) 4 5] id (fun J =>
        J.h.perm.elim false (fun x => (routeTable x.na (J.view.getS x.s) 7).any (fun r => x.pa == r.1) &&
          (routeTable x.nb (J.view.getS x.s) 7).any (fun r => x.pb == r.1))))] = true := by decide +kernel

/-- The issuer of a fixture satisfies `p`. -/
def issues (i : Instr) (hints : List Instr) (change : State → State) (p : Issue → Bool) : Bool :=
  (fixture i hints change).issuer.elim false p

/-- The hints of a chain, where it keeps the rules. -/
def hintsOf (l : List Instr) : Option Hints := (chainHints Hints.none l).toOption

theorem witness_ChecksComeInOrder :
    every [
      issues (.sadd 1 2 3 0) [.himm 1, .himm 1] id (fun I => !isOk (chainHints Hints.none I.frag.chain)),
      issues .nop [.hpred 1 0] id (fun I => (hintsOf I.frag.chain).elim false (fun h => (acceptance .nop I.frag h).isSome)),
      issues (.vadd 1 2 3 0) [] (warpDo (fun w => { w with role := .copy })) (fun I => (acceptance (.vadd 1 2 3 0) I.frag Hints.none).isNone &&
        roleOfCode 3 0 == some .epilogue && I.warp.role == .copy),
      issues (.csrd 1 0x10) [] id (fun I => (acceptance (.csrd 1 0x10) I.frag Hints.none).isNone && !mayReadCsr I.grid.handler 0x10),
      issues (.cswr 1 0x02) [] id (fun I => (acceptance (.cswr 1 0x02) I.frag Hints.none).isNone && !mayWriteCsr I.grid.handler 0x02),
      issues (.sadd 1 2 3 0) [] id (fun I => I.frag.latch.isNone && I.outstanding.isEmpty && I.warp.uid == I.ref.warp && I.frag.chain.isEmpty && I.warp.inflight.isEmpty &&
        decide (I.st.warp? I.ref.warp = some I.warp) && decide (I.st.ctxOf I.group = some I.ctx) &&
        decide (I.st.group? I.warp.group = some I.group) && decide (I.warp.frag? I.ref.frag = some I.frag))] = true := by decide +kernel

/-- A fault queue of four records at 0x200000. -/
def faultQueue : State → State := ctxDo (fun c => { c with fqbase := 0x200000, fqsize := 4 })

theorem witness_ExceptionEntry :
    every [
      issues (.trap 1) [] id (fun I => decide (I.st.ctx? I.group.part I.group.ctx = some I.ctx) && I.ctx.part == I.group.part &&
        I.ctx.slot == I.group.ctx && I.ctx.fqsize == 0),
      issues (.trap 1) [] faultQueue (fun I => I.ctx.heldFaults.isEmpty && I.ctx.fqsig == 0 && I.ctx.fqsize == 4 &&
        I.ctx.fqhead - I.ctx.fqtail == 0 &&
        (let s := I.st.drainCore I.warp.core
         let upto := I.st.storeNumber I.warp.core
         !s.unacknowledged I.warp.core upto && !s.unperformed I.warp.core upto && (s.headboxKey I.ctx .write 0x200000).isSome)),
      issues (.trap 1) [] (fun s => { faultQueue s with sbuf := [entry 3 (2 ^ 52)], sbufSeq := s.sbufSeq.setIfInBounds 0 4 }) (fun I =>
        I.ctx.heldFaults.isEmpty && (I.st.drainCore I.warp.core).unacknowledged I.warp.core (I.st.storeNumber I.warp.core)),
      issues (.vld 1 2 0 4 0) [] id (fun I => I.warp.role == .epilogue && I.frag.lanes &&& 1 != I.frag.lanes && I.warp.freeRecord == some 1 &&
        I.warp.frags.all (fun f => f.id != I.warp.nextFrag))] = true := by decide +kernel

/-- A live record 5 of the one fragment, of a fault code. -/
def aLive (code : Nat) : Live :=
  { seq := 5, code := code, group := 0, role := .epilogue, index := 0, frag := some { warp := 0, frag := 0 }, lanes := 0xFFFFFFFF, skip := 4 }
def parkedState (code : Nat) (state : GroupState) : State :=
  groupDo (fun g => { g with state := state }) (ctxDo (fun c => { c with live := [aLive code] })
    (fragDo (fun f => { f with wait := .parked 5 }) (fixture .nop [] id)))

/-- Record 5 is live and awaits its first answer. -/
def answerable (s : State) : Bool := (s.ctx? 0 0).elim false (fun c =>
  (c.live.find? (fun l => l.seq == 5)).isSome && c.answers.isEmpty && c.heldFaults.isEmpty && c.state != .faulted)

/-- A wait on the future `n` of a page. -/
def aJoin (n : Nat) : Join :=
  { n := some n, page := 9 + n, mig := false, expl := false, wr := false, src := 0, aux := 5, addr := 0, lanes := some 1, rpl := none }

theorem witness_FaultAndPagerAnswers :
    every [
      ((fixture .nop [] id).ctx? 0 0).elim false (fun c => c.live.all (fun l => l.seq != 5) && c.futures.isEmpty),
      answerable (parkedState 14 .running),
      answerable (parkedState 15 .evicted) && ((parkedState 15 .evicted).group? 0).elim false (fun g => g.state == .evicted),
      answerable (parkedState 15 .running) && ((parkedState 15 .running).warp? 0).elim false (fun w =>
        (w.frag? 0).elim false (fun f => f.wait == .parked 5)),
      ((ctxDo (fun c => { c with futures := [{ n := 3, page := 9 }] }) (fixture .nop [] id)).ctx? 0 0).elim false (fun c =>
        (c.futures.find? (fun f => f.n == 3)).isSome),
      ((parkedState 15 .running).warp? 0).elim false (fun w => w.uid == 0 && w.liveLanes &&& ~~~(1 : Word) != 0 &&
        w.liveLanes &&& ~~~(0xFFFFFFFF : Word) == 0),
      (let s := ctxDo (fun c => { c with futures := [{ n := 3, page := 9 }] })
          (fragDo (fun f => { f with wait := .futures [aJoin 3] }) (fixture .nop [] id));
        (s.ctx? 0 0).elim false (fun c => c.adds.isEmpty && s.fragsOf c == [{ warp := 0, frag := 0 }]) &&
          s.warps.all (fun w => w.frags.all (fun f => match f.wait with | .futures js => js.all (fun j => j.n.isSome) | _ => true))),
      [[aJoin 3], [aJoin 3, aJoin 4], [aJoin 4]].all (fun js =>
        let s := fragDo (fun f => { f with wait := .futures js }) (fixture .nop [] id)
        ((s.warp? 0).bind (fun w => w.frag? 0)).elim false (fun f => f.wait == .futures js && f.latch.isNone)),
      ([aJoin 3, aJoin 4].find? (fun j => j.n == some 3)).isSome,
      (pageJoins [(0, 0x5000, false), (3, 0x5008, false)] 0 true).map Join.page == [5]] = true := by decide +kernel

theorem witness_TrapsAndSleep :
    every [
      runs (.trap 3),
      met (.assert 1 3) [] id (fun J => J.sv 1#6 == 0),
      met (.assert 1 3) [] (warpDo (fun w => w.setS 1 1)) (fun J => J.sv 1#6 != 0),
      met (.bkpt 3) [] (ctxDo (fun c => { c with cfg := 2 })) (fun J => J.ctx.cfg.getLsbD 1),
      met (.bkpt 3) [] id (fun J => !J.ctx.cfg.getLsbD 1),
      runs (.sleep 0), runs (.sleep 9),
      issues .nop [] id (fun I => I.frag.chain.isEmpty && isOk I.fetch),
      issues .nop [] (fun s => { s with mem := memSetNat s.mem 0x3000 8 2 }) (fun I => match I.fetch with | .error (.wait _ _) => true | _ => false),
      issues .nop [] (fun s => { s with mem := memSetNat s.mem 0x3000 8 0 }) (fun I => match I.fetch with | .error (.trap _) => true | _ => false),
      ((fragDo (fun f => { f with wait := .sleep 7 }) (fixture .nop [] id)).warp? 0).elim false (fun w =>
        (w.frag? 0).elim false (fun f => f.wait == .sleep 7))] = true := by decide +kernel

/-- What an instruction that issued and waits has read. -/
def aLatch : Option Latch := (fixture (.vadd 1 2 3 0) [] id).issuer.map (fun I => I.latch (.vadd 1 2 3 0) (.lock [0]))

/-- The first step of the fixture of a word. -/
def firstStep (w : Nat) : Host.Outcome State Fault Refusal := step (State.reset.withFetchWord 32 w)

theorem witness_StepRunsDecoded :
    every (let s := State.reset.withFetchWord 32 0x02041460;
      let s₀ := { s with agenda := [], draws := s.draws + 1 };
      [
      s.agenda == [.issue 0 0] && s₀.finishing.isNone && decide (State.chosen s₀ 0 0 = some { warp := 0, frag := 0 }),
      decide (State.firstIssue s₀ = some { warp := 0, frag := 0 }),
      [s₀, { s with agenda := [], draws := s.draws + 2 }].all (fun u => ((u.passOver { warp := 0, frag := 0 }).issuing { warp := 0, frag := 0 }).issuer.elim false (fun I =>
        let va := I.frag.pc.toNat % 2 ^ 57
        (match I.st.translate I.agent.master I.ctx .fetch va with
          | .ok k => k == wordAt && I.st.reaches (dieOf I.warp.core) 0 k && (I.fetchReads I.st va k).isSome | _ => false))),
      bytesWord ((List.range 4).map (fun n => memRead s.mem (wordAt + n))) == 0x02041460,
      (match Sys2Proof.decode 0x02041460 with | .ok i => i == .sdiv 4 5 6 0 | .error _ => false),
      (match Sys2Proof.decode 0xF0000000 with | .ok _ => false | .error _ => true),
      (State.firstIssue { State.reset with draws := 1 }).isNone && (State.internal { State.reset with draws := 1 }).isNone,
      decide (State.chosen { State.reset with draws := 1 } 0 0 = none) && (State.finishing { State.reset with draws := 1 }).isNone,
      (Instr.copyStart 0).isEvent,
      (let s := fragDo (fun f => { f with latch := aLatch }) { s₀ with cur := none };
        s.finishing == some { warp := 0, frag := 0 } && s.goesOn { warp := 0, frag := 0 } == some (.vadd 1 2 3 0))]) = true := by decide +kernel

theorem witness_StepKeepsGroupsFollowing :
    every (let s := State.reset.withFetchWord 32 0x22C00000;
      [
      decide (s.cur = none),
      s.groups.all (fun g => g.state == .running && (g.hungSince.isSome == s.isHung g) &&
        s.warps.any (fun w => w.group == g.uid && (!w.started || !w.stuck))),
      (match firstStep 0x22C00000 with | .next _ => true | _ => false)]) = true := by decide +kernel

theorem witness_EncodingRoundTrip :
    every (wordTable.map (fun p => p.2.wf && (Sys2Proof.encode p.2 == some p.1) &&
      (match Sys2Proof.decode p.1 with | .ok i => i == p.2 | .error _ => false))) = true := by decide +kernel

/-! ### Witnesses: events -/

/-- The fixture's machine with no fragment issuing: one epilogue warp of one group in context 0 of partition 0. -/
def machine : State := { fixture .nop [] id with cur := none }
def waitsOn (x : Wait) (s : State) : State := fragDo (fun f => { f with wait := x }) s
def frag0 (s : State) (p : Warp → Frag → Bool) : Bool := (s.warp? 0).elim false (fun w => (w.frag? 0).elim false (p w))
def group0 (s : State) (p : Group → Bool) : Bool := (s.group? 0).elim false p
def ctx0 (s : State) (p : Ctx → Bool) : Bool := (s.ctx? 0 0).elim false p

/-- A message of a flow, from core 0, toward host memory. -/
def aMessage (kind : MsgKind) (delivered : Bool) : Message :=
  { uid := 7, seq := 0, from_ := { (entry 0 0).from_ with va := 0x200000 }, order := 4, key := 2 ^ 52, data := [1, 2, 3, 4], kind := kind,
    delivered := delivered, performed := false }
def aFlow (cls : Nat) (target : Home) (m : Message) : Flow :=
  { id := 0, die := 0, cls := cls, target := target, link := 13, next := 1, held := [m] }

def aReq : AtomReq := { lane := 0, key := 2 ^ 52, size := 4, op := 0, b := 1, cmp := none, va := 0x200000 }

/-- An atomic of one lane under way, with its answers. -/
def anAtomic (olds : List (Nat × Nat)) : RemoteReq :=
  { frag := { warp := 0, frag := 0 }, core := 0, group := 0, grid := 0, from_ := (entry 0 0).from_, dest := .nowhere, olds := olds, refused := 0,
    reqs := [aReq] }

def aTag (draining drained : Bool) (s : State) : State :=
  { s with tags := [{ line := 5, core := 0, scope := 1, seq := 1, draining := draining, drained := drained }] }

theorem witness_WaitingEvents :
    every (let outside := [(0, 0, 2 ^ 52)];
      let reads := fun (x : Wait) (s : State) => waitsOn x s;
      [
      frag0 (fragDo (fun f => { f with readyFor := 64 }) machine) (fun _ f => decide (64 ≤ f.readyFor) && f.promoted.isNone),
      frag0 machine (fun _ f => decide (f.readyFor < 64)),
      frag0 (waitsOn (.signal 0 0) machine) (fun w _ => (waitsOn (.signal 0 0) machine).signalDue w 0 0),
      frag0 (waitsOn (.signal 0 1) machine) (fun w _ => !(waitsOn (.signal 0 1) machine).signalDue w 0 1),
      [outside, [(0, 0, 0)]].all (fun l => frag0 { waitsOn (.remote 0 false false l) machine with ticks := 13501 } (fun _ f => f.wait == .remote 0 false false l)) &&
        ctx0 machine (fun c => ({ machine with ticks := 13501 } : State).olderThan 0 c.rwth.toNat && !machine.olderThan 0 c.rwth.toNat) &&
        (machine.group? 0).any (fun g => (machine.ctxOf g).isSome),
      machine.remotes.isEmpty && machine.flows.isEmpty && !machine.copyOwns 5 && !machine.hostHeld.contains 5 && machine.tags.isEmpty,
      frag0 (reads (.remote 0 false false outside) machine) (fun w _ => (machine.allReturn (dieOf w.core) 0 [2 ^ 52]).isSome),
      (let s := linkIs .down 13 (reads (.remote 0 false false outside) machine);
        s.remotes.isEmpty && s.flows.isEmpty && !s.reachable 0 (2 ^ 52) && (s.allReturn 0 0 [2 ^ 52]).isNone),
      (let s := { reads (.remote 0 false false outside) machine with flows := [aFlow 0 .host (aMessage (.read { warp := 0, frag := 0 }) false)] };
        s.remotes.isEmpty && s.flows.any (fun g => g.held.any (fun y => !y.performed && y.kind == .read { warp := 0, frag := 0 }))),
      [Wait.line 5, .snoop 5, .promotion 5].all (fun x => frag0 (waitsOn x machine) (fun _ f => f.wait == x)),
      ({ machine with copies := [{ aCopy 0 .cpy false with lines := [5], owned := 1 }] } : State).copyOwns 5,
      (aTag true false machine).tags.any (fun t => t.line == 5 && t.draining),
      [[], [(0, 9)]].all (fun o => ({ machine with remotes := [anAtomic o] } : State).remotes.any (fun y => y.frag == { warp := 0, frag := 0 }) &&
        (anAtomic o).reqs.all (fun q => (anAtomic o).olds.any (fun p => p.1 == q.lane)) == !o.isEmpty &&
        (machine.allReturn 0 1 ((anAtomic o).reqs.map AtomReq.key)).isSome),
      ((linkIs .down 13 machine).allReturn 0 1 ((anAtomic []).reqs.map AtomReq.key)).isNone && (machine.allReturn 0 0 [0x200000]).isSome,
      ((boxes 0xB0000003 [message true, message false] machine).mbox? 5).elim false (fun b => b.msgs == [message true] ++ message false :: [])])
        = true := by decide +kernel

/-- Four warps of 16 steps each have spent the one granule of their group's pool, the scratchpad has the rest of the core, and each warp
claims one step more: an explicit claim, or an implicit one. -/
def claiming (dest : Option Nat) (f : Warp → Warp) : State :=
  let s := kernelDo (fun kd => { kd with rf := 1, sp := 94, ts := 1 })
    (groupDo (fun g => { g with places := g.places.map (fun p => { p with granules := 1 }) })
      (waitsOn (.claim 1 dest 0 none (if dest.isSome then [] else [5])) (warpDo (fun w => { w with started := true, budget := 16 }) machine)))
  { s with warps := s.warps.flatMap (fun w => (List.range 4).map (fun n => f { w with uid := n, slot := n, index := n })) }
/-- A second group, placed later, in the place of the tile store. -/
def crowded : State :=
  let s := kernelDo (fun kd => { kd with sp := 47, ts := 0 }) (claiming (some 1) id)
  { s with groups := s.groups ++ [{ wordGroup with uid := 1, placedAt := 9, places := [{ core := 0, granules := 1, spad := [], tiles := [] }] }] }
def tagging (w : Warp) : Warp := { w with slots := w.slots.setIfInBounds 0 { Slot.none with state := .live, vd := 1 } }

theorem witness_ArbiterResolvesDeadlock :
    every [
      !machine.arbiterActs 0,
      crowded.arbiterActs 0 && (crowded.liveTags 0).isEmpty && decide (2 ≤ (crowded.groupsOn 0).length),
      (let s := claiming (some 1) id;
        s.arbiterActs 0 && (s.liveTags 0).isEmpty && decide ((s.groupsOn 0).length ≤ 1) && !(s.warpsOn 0).isEmpty &&
          (s.groupsOn 0).all (fun g => s.warps.all (fun w => decide (w.group ≠ g.uid) || decide (0 < w.largestClaim)))),
      (let s := { claiming (some 1) id with warps := (claiming (some 1) id).warps ++
            (waitsOn (.barrier 0 false true false) machine).warps.map (fun (w : Warp) => { w with uid := 9, core := 1, pos := 1, started := true }) };
        s.arbiterActs 0 && (s.liveTags 0).isEmpty && decide ((s.groupsOn 0).length ≤ 1) &&
          (s.groupsOn 0).any (fun g => s.warps.any (fun w => decide (w.group = g.uid) && decide (w.largestClaim = 0)))),
      (let s := claiming none tagging;
        s.arbiterActs 0 && (match s.liveTags 0 with
          | x :: _ => decide (((s.arbiterDrop x.1 x.2).claimsAt 0).length < (s.claimsAt 0).length)
          | [] => false))] = true := by decide +kernel

/-- Whether the stores of core 0 can all leave their buffer. -/
def storesFree (s : State) : Bool :=
  s.sbuf.all (fun e => decide (e.core ≠ 0) || (decide (e.rel.getD 0 = 0) && !s.lineHeld 0 e.seq (e.key / 128)))

theorem witness_StoreBufferAndHostEvents :
    every [
      storesFree (buffered machine) && storesFree (aTag true false (buffered machine)),
      (let s := aTag true false machine; (s.tagsOf 5).map Tag.draining == [true] && (s.tagsOf 5).map Tag.drained == [false] &&
        s.dieCrosses (dieOfKey (128 * 5)) (dieOf 0) && s.dieCrosses (dieOf 0) (dieOfKey (128 * 5))),
      (let s := aTag true true machine; (s.tagsOf 5).map Tag.drained == [true] && !s.unperformed 0 2 && !s.unacknowledged 0 2),
      (let s := aTag true true (buffered machine); s.unperformed 0 6),
      (machine.tagsOf 5).isEmpty,
      machine.linkUp 13 && machine.linkUp 0 && !(linkIs .down 13 machine).linkUp 13 && dieOfKey (128 * 5) == 0 && dieOfKey 0x3000000000 == 1 &&
        !(linkIs .down 0 machine).linkUp 0,
      [0, 1].all (fun c => (machine.letIn .host c (linesOf 0x200000 300)).isSome && ((linkIs .down 13 machine).letIn .host c (linesOf 0x200000 300)).isNone),
      (List.range 4).all (fun l => !machine.copyOwns l),
      ({ machine with copies := [{ aCopy 0 .cpy false with lines := [1], owned := 1 }] } : State).copyOwns 1,
      (List.range 4).all (fun l => !machine.deviceHolds (2 ^ 45 + l))] = true := by decide +kernel

/-- While the answer of an atomic that the device performed on host memory is on its way, the device holds the line. -/
theorem witness_deviceHolds :
    every [({ machine with flows := [aFlow 0 .host { aMessage (.atomic { warp := 0, frag := 0 } 4 aReq none) true with performed := true }] } : State).deviceHolds (2 ^ 45)] = true := by
  decide +kernel

/-- Store numbers rise on every core of the plain machine. -/
theorem witness_allStoresOrdered : ∀ c, machine.storesOrdered c := by
  intro c
  have h : machine.sbuf = [] := by decide +kernel
  simp [State.storesOrdered, h]

/-- Alone in its machine, a message that is not delivered is the one that arrives, whatever the class. -/
theorem arriving_alone {s : State} {f : Flow} {m : Message} (hf : s.flows = [f]) (hh : f.held = [m]) (hd : m.delivered = false)
    (hm : m.follows m = false) : s.arriving f = some m := by
  simp [State.arriving, State.allHeld, hf, hh, hd, hm, flowLimit, Nat.mod_one]

/-- Flow `f` alone, with peer 2 over link 1. -/
def withFlow (f : Flow) (s : State) : State :=
  { s with flows := [f], peers := [(2, 0x8001)], links := s.links.setIfInBounds 1 { Link.reset 0 with permits := permitTable 1, far := permitTable 1 } }

/-- The kinds of message, and the class of each toward a peer. -/
def kinds : List (Nat × MsgKind) :=
  [(1, .write none), (2, .read { warp := 0, frag := 0 }), (2, .copyRead 0), (2, .copyWrite 0 0 none), (2, .copyWrite 0 0 (some 0)),
   (2, .prefetch), (1, .notice),
   (2, .atomic { warp := 0, frag := 0 } 4 aReq none)]

/-- Whether the flow of a message can deliver it: a link with permits, and no home that holds it back. -/
def mayArrive_ (t : Home) (c : Nat) (k : MsgKind) (told : Bool) : Bool :=
  let m := { aMessage k false with from_ := { (aMessage k false).from_ with told := told } }
  let s := { withFlow (aFlow c t m) machine with copies := [aCopy 0 .cpys true] }
  !m.delivered && !m.follows m && !s.homeHolds m && (s.copy? 0).isSome &&
    (s.flowLink (aFlow c t m)).elim false (fun n => (linksVia 0 n).all (s.permitted 0 c))

theorem witness_FlowAndLinkEvents :
    every [
      [false, true].all (fun done =>
        let f := aFlow 1 .host { aMessage (.write none) true with performed := done };
        let s := { machine with flows := [f] };
        (s.flowLink f).elim false (fun n => (linksVia f.die n).all (s.permittedBack f.die f.cls)) && f.held.head?.all (fun m => m.performed == done)),
      (let f := aFlow 1 .host { aMessage (.write none) true with performed := true };
        let s := { machine with flows := [f], links := machine.links.setIfInBounds 13 { Link.reset 13 with far := Vector.replicate 4 0 } };
        (s.flowLink f).elim false (fun n => !(linksVia f.die n).all (s.permittedBack f.die f.cls))),
      [Home.host, .peer 2].all (fun t => kinds.all (fun k => [true, false].all (mayArrive_ t k.1 k.2))),
      (let m := { aMessage (.write none) false with key := 0x3000000000 };
        let s := { withFlow (aFlow 1 .device m) machine with hostHeld := [lineOf 0x3000000000] };
        s.homeHolds m && (s.flowLink (aFlow 1 .device m)).elim false (fun n => (linksVia 0 n).all (s.permitted 0 1))),
      (let s := withFlow (aFlow 1 (.peer 9) (aMessage (.write none) true)) machine;
        (findKey Sys2Proof.Machine.Flow.id 0 s.flows).elim false (fun f => (s.flowLink f).isNone)),
      (let f := aFlow 1 .host (aMessage (.write none) false);
        let s := withFlow f { machine with links := machine.links.setIfInBounds 13 { Link.reset 13 with permits := Vector.replicate 4 0 } };
        (s.flowLink f).elim false (fun n => !(linksVia 0 n).all (s.permitted 0 1))),
      [LinkState.up, .degraded, .training, .down].all (fun l => ((linkIs l 3 machine).links[3]?).elim false (fun x => x.state == l)),
      machine.firmware.verified && !({ machine with firmware := { machine.firmware with verified := false } } : State).firmware.verified,
      ((linkIs .up 3 machine).links[3]?).elim false (fun x => x.permits.getD 1 0 == (permitTable 3).getD 1 0)] = true := by decide +kernel

/-- A Waiting group of one copy warp and no storage under a request, with a save area of 64 pages at 0x400000. -/
def preempted (s : State) : State :=
  groupDo (fun g => { g with state := .waiting, preempt := [{ since := 0, cause := none, late := false, met := false }] })
    (ctxDo (fun c => { c with savebase := 0x400000, savesize := 64 })
      (kernelDo (fun kd => { kd with sp := 0, ts := 0 }) (warpDo (fun w => { w with role := .copy, budget := 0 }) s)))
def evicting (s : State) : State :=
  groupDo (fun g => { g with state := .evicting, saved := some (0x9000, 0x2000, 0) }) (preempted s)

/-- The group and its warp on core 24, of die 1. -/
def onDieOne (s : State) : State :=
  warpDo (fun w => { w with core := 24 }) (groupDo (fun g => { g with places := g.places.map (fun p => { p with core := 24 }) }) s)

/-- Whether the record of a group can be written. -/
def written (s : State) (g : Group) : Bool :=
  (s.grid? g.grid).elim false (fun grid => ctx0 s (fun c => (s.writeRecord c g (0x9000, 0x2000, 0) (s.phaseRecord g grid)
    (128 + g.span * grid.kd.sectionBytes + ((s.warps.filter (fun w => w.group == 0)).map Warp.partBytes).sum)).isSome))

theorem witness_EvictionEvents :
    every [
      group0 machine (fun g => g.preempt.isEmpty) && group0 machine (fun g => (machine.grid? g.grid).isSome),
      group0 (preempted machine) (fun g => !g.preempt.isEmpty && g.state == .waiting &&
        ((preempted machine).grid? g.grid).elim false (fun grid => ctx0 (preempted machine) (fun c =>
          (c.room ((preempted machine).recordSize g grid.kd)).isSome && ({ c with savesize := 9 }.room ((preempted machine).recordSize g grid.kd)).isNone)) &&
        g.kills.isEmpty && (preempted machine).mayDirect g.headboxDie),
      (let s := onDieOne (preempted machine);
        group0 s (fun g => (s.grid? g.grid).elim false (fun grid => ctx0 s (fun c => (c.room (s.recordSize g grid.kd)).isSome)) &&
          s.mayDirect g.headboxDie && !(linkIs .down 0 s).mayDirect g.headboxDie)),
      [evicting machine, onDieOne (evicting machine)].all (fun s => group0 s (fun g => s.recordReady g && !g.doomed && written s g)),
      (let s := { evicting machine with hostHeld := [lineOf 0x409000] };
        group0 s (fun g => s.recordReady g && !g.doomed && !written s g)),
      machine.driverReaches && !(linkIs .down 13 machine).driverReaches,
      group0 machine (fun g => !machine.recordReady g),
      (let s := groupDo (fun g => { g with state := .running }) { preempted machine with ticks := 5400001 };
        group0 s (fun g => ctx0 s (fun c => s.olderThan 0 c.pdl.toNat && g.preempt.all (fun p => !p.late)))),
      (let s := groupDo (fun g => { g with state := .waiting, hungSince := some 0 }) (waitsOn (.barrier 0 false false false) { machine with ticks := 5400001 });
        group0 s (fun g => s.isHung g && !g.hungRaised && ctx0 s (fun c => s.olderThan 0 c.pdl.toNat))),
      (let s := groupDo (fun g => { g with state := .evicted, savedWaits := [.remote 0 false false []] }) { machine with ticks := 54000 };
        group0 s (fun g => g.resumable.isNone && ctx0 s (fun c => decide (g.evictedAt + 2700 * c.evth.toNat ≤ s.ticks))))] = true := by
  decide +kernel

/-- Partition 0 owns every quire, and its group is not placed yet. -/
def unplaced (s : State) : State :=
  groupDo (fun g => { g with state := .pending, places := [] }) { s with parts := s.parts.setIfInBounds 0 { Part.reset with mask := 0x3F }, warps := [] }

/-- Whether the first unplaced group of priority 0, after the signals are read, has `p`. -/
def attempts (s : State) (p : State → Group → Grid → Bool) : Bool :=
  let r := s.readSignals 0
  match r.unplacedAt 0 0 with
  | [] => false
  | g :: _ => (r.grid? g.grid).elim false (p r g)

theorem witness_PlacementChoosesQuire :
    every [
      group0 (unplaced machine) (fun g => ((unplaced machine).grid? g.grid).elim false (fun grid =>
        ((unplaced machine).chosenQuire g grid.kd).isSome && decide (g.part < 6))),
      group0 machine (fun g => (machine.grid? g.grid).elim false (fun grid => (machine.chosenQuire g grid.kd).isNone)),
      attempts { unplaced machine with fresh := 9 } (fun s g grid => (s.chosenQuire g grid.kd).elim false (fun q => s.mayDirect (q / 3) &&
        (List.range 4).all (fun p => (s.placeOn g grid q).unplacedAt 0 p == []))) &&
        (unplaced machine).groups.all (fun x => decide (x.uid < 9)),
      attempts (linkIs .down 0 { unplaced machine with parts := machine.parts.setIfInBounds 0 { Part.reset with mask := 0x38 } }) (fun s g grid =>
        (s.chosenQuire g grid.kd).elim false (fun q => !s.mayDirect (q / 3))),
      [0, 100000000].all (fun n => attempts { unplaced machine with heldOut := 0x3F, ticks := n } (fun s g grid =>
        (s.chosenQuire g grid.kd).isNone && (s.unplacedAt 0 g.part).all (fun x => s.overdue x == decide (0 < n)) &&
          [1, 2, 3].all (fun p => (s.attemptFailed 0 g).unplacedAt 0 p == []))),
      (List.range 4).all (fun p => (machine.readSignals 0).unplacedAt 0 p == [])] = true := by decide +kernel

/-- The group of `machine` evicted by two events, and resumed on core 0. -/
def ranTo (o : Host.Outcome State Fault Refusal) : State :=
  match o with
  | .next t => t
  | _ => State.reset
def resumed : State :=
  groupDo (fun g => { g with state := .resumed, places := [{ core := 0, granules := 8, spad := [], tiles := [] }] })
    (ranTo (execPhaseRecordComplete 0 (ranTo (execEviction 0 (waitsOn (.barrier 0 false false false) (preempted machine))))))
def attaching (s : State) : State :=
  { groupDo (fun g => { g with pend := [0, 0, 1] }) s with flatch := 0x1F }

theorem witness_GroupLifeEvents :
    every [
      group0 resumed (fun g => g.saved.isSome && g.state == .resumed && g.kills.isEmpty && ctx0 resumed (fun c => c.state == .active && c.answers.isEmpty &&
        g.saved.elim false (fun x => (resumed.grid? g.grid).elim false (fun grid =>
          (resumed.readRecord c g.headboxDie x).elim false (fun r =>
            let ws := resumed.restoredWarps g c grid.kd r.1
            !g.badRecord grid.kd r.1 && resumed.locksFree g ws && g.badRecord grid.kd (memSetNat r.1 0 8 0xFFFFFFFFFFFFFFFF) &&
              ((r.2.restoreGroup g c ws (g.restoredPlaces grid.kd r.1)).freeRecord g).isSome))))),
      group0 (attaching machine) (fun g => decide (0 < g.pend.getD 2 0) && g.state == .running && decide (0 < g.span) &&
        ((attaching machine).grid? g.grid).elim false (fun grid => (attaching machine).attachFits g grid.kd .epilogue 0)),
      group0 machine (fun g => g.pend.getD 2 0 == 0 && g.state != .retiring),
      (let s := groupDo (fun g => { g with state := .retiring }) machine;
        group0 s (fun g => g.state == .retiring && !s.groupBusy g && !(s.performWhere (fun e => e.group == 0)).storesLeft g)),
      (let s := groupDo (fun g => { g with state := .retiring }) { machine with sbuf := [entry 3 0x200000], hostHeld := [0x4000] };
        group0 s (fun g => g.state == .retiring && !s.groupBusy g && (s.performWhere (fun e => e.group == 0)).storesLeft g)),
      (let s := groupDo (fun g => { g with saved := some (0x9000, 0x2000, 0) }) machine;
        group0 s (fun g => g.saved.isSome && g.state != .resumed && (s.ctxOf g).isSome)),
      group0 resumed (fun g => resumed.warps.all (fun w => w.locks.isEmpty) && g.span == 1),
      (let s := { resumed with hostHeld := [lineOf 0x401000] };
        group0 s (fun g => ctx0 s (fun c => g.saved.elim false (fun x => (s.readRecord c g.headboxDie x).isNone))))] = true := by
  decide +kernel
/-- A queue 1 of context 0, of sixteen entries at 0x300000, with a packet read or to be read. -/
def aQueue : SubQueue := { SubQueue.none 1 with base := 0x300000, cfg := 0x80000004 }
def queued (f : SubQueue → SubQueue) (s : State) : State := ctxDo (fun c => { c with queues := [f aQueue] }) s
def packetOf (type : Nat) : Packet := BitVec.ofNat 512 type
def blockedOn (p : Packet) : State := queued (fun q => { q with wptr := 1, rptr := 1, blocked := some p, cfg := 0xC0000004 }) machine
def waitingFor (p : Packet) : State := queued (fun q => { q with wptr := 1, rptr := 1, shooting := some (0, p) }) machine
def shoot : Packet := BitVec.ofNat 512 (4 + 0x1000 * 2 ^ 64 + 0x1000 * 2 ^ 192)

/-- Partition 0 owns quires of both dies. -/
def spread1 (s : State) : State := { s with parts := s.parts.setIfInBounds 0 { Part.reset with mask := 0x3F } }

theorem witness_PacketEvents :
    every [
      (let s := queued (fun q => { q with wptr := 1 }) machine;
        ctx0 s (fun c => c.serves && (c.queueOr 1).en && (match s.headboxRead c ((c.queueOr 1).entryAt 0) 64 with
          | .ok (bs, u) => (u.packetCause c (c.queueOr 1) (BitVec.ofNat 512 (natLE bs))).isNone
          | .error _ => false))),
      (let s := queued (fun q => { q with wptr := 1 }) { machine with mem := memSetNat machine.mem 0x300000 4 2 };
        ctx0 s (fun c => match s.headboxRead c ((c.queueOr 1).entryAt 0) 64 with
          | .ok (bs, u) => u.packetCause c (c.queueOr 1) (BitVec.ofNat 512 (natLE bs)) == some 1
          | .error _ => false)),
      (let s := queued (fun q => { q with wptr := 1 }) { machine with mem := memSetNat machine.mem 0x3000 8 2 };
        ctx0 s (fun c => match s.headboxRead c ((c.queueOr 1).entryAt 0) 64 with | .error (_, .waits _) => true | _ => false)),
      (let s := queued (fun q => { q with wptr := 1 }) machine;
        let s := (s.ctx? 0 0).elim s (fun c => s.setCtx { c with ptroot := 0x6000000000 });
        ctx0 s (fun c => match s.headboxRead c ((c.queueOr 1).entryAt 0) 64 with | .error (_, .nowhere) => true | _ => false)),
      (let s := queued (fun q => q) machine; ctx0 s (fun c => (c.queueOr 1).rptr == (c.queueOr 1).wptr)),
      ctx0 machine (fun c => !(c.queueOr 1).en),
      [0, 3].all (fun t => ((blockedOn (packetOf t)).taken 0 0 1 t).isSome) && ((blockedOn shoot).taken 0 0 1 4).isSome,
      (blockedOn (packetOf 0)).nextPacket 0 == some (0, 1),
      (let p : Packet := BitVec.ofNat 512 (0x2000 * 2 ^ 384);
        ctx0 (blockedOn p) (fun c => p.dep == 0x2000 && c.serves && (c.queueOr 1).en && (match (blockedOn p).headboxFinds c p.dep with | .ok _ => true | _ => false))),
      (let p : Packet := BitVec.ofNat 512 (0xC0000000 * 2 ^ 384);
        ctx0 (blockedOn p) (fun c => match (blockedOn p).headboxFinds c p.dep with | .prot _ => true | _ => false)),
      (let p : Packet := BitVec.ofNat 512 (0x2000 * 2 ^ 384);
        let s := { blockedOn p with hostHeld := [32] };
        ctx0 s (fun c => match s.headboxFinds c p.dep with | .stalled _ => true | _ => false)),
      (let p : Packet := BitVec.ofNat 512 (0x2000 * 2 ^ 384);
        let s := { blockedOn p with mem := memSetNat machine.mem 0x3000 8 2 };
        ctx0 s (fun c => match s.headboxFinds c p.dep with | .waits _ => true | _ => false)),
      (let s := spread1 (blockedOn shoot); (s.taken 0 0 1 4).isSome && s.notifies 0 0 1),
      !(waitingFor shoot).shooting 0 0 shoot && (waitingFor shoot).notifies 0 1 0,
      (let s := linkIs .down 0 (spread1 (waitingFor shoot)); !s.shooting 0 0 shoot && !s.notifies 0 1 0),
      ctx0 (waitingFor shoot) (fun c => (c.queueOr 1).shooting == some (0, shoot)) && !(waitingFor shoot).shooting 0 0 shoot,
      ({ waitingFor shoot with copies := [{ aCopy 0 .cpy true with pages := [1] }] } : State).shooting 0 0 shoot] = true := by decide +kernel

/-- A kernel entry 3 in force, and the packet that launches it; a descriptor at 0x500000. -/
def launching : State :=
  { queued (fun q => { q with wptr := 1, rptr := 1, blocked := some (BitVec.ofNat 512 (1 + 3 * 2 ^ 32)) }) machine with
    kernels := [{ (machine.kernelOr 0 3) with valid := true, slot := 0, kd := wordKernel }], fresh := 64 }
def described : State :=
  { machine with
    kernels := [{ (machine.kernelOr 0 3) with wDesc := 0x500000 }]
    mem := memSetNat (memSetNat (memSetNat (memSetNat machine.mem 0x500026 4 0x00010101) 0x500030 4 1) 0x500034 4 1) 0x500038 4 1 }
/-- The kernel asks for a word in format entry 6. -/
def asking (s : State) : State :=
  { s with kernels := [{ (s.kernelOr 0 3) with valid := true, slot := 0, kd := { wordKernel with fmtm := 0x1000, fmtw := [0, 0, 0, 0, 0, 0, 0x8003FAF1, 0, 0, 0] } }] }
def closing (done : Dword) : State := gridDo (fun g => { g with state := .closing, done := done }) machine
def aRecord : Record :=
  { pc := 0, lanes := 0, code := 1, frag := 0, seq := 0, detail := 0, aux := 0, addr := 0, who := 0, kid := 0, gx := 0, gy := 0, gz := 0, gridn := 0,
    behind := none, own := false }

theorem witness_KernelAndGridEvents :
    every [
      (machine.ctx? 0 5).isNone,
      ctx0 machine (fun c => (match machine.readDescriptor c 1 with | .error false => true | _ => false) && c.state.holds),
      ctx0 described (fun c => isOk (described.readDescriptor c ((described.kernelOr 0 3).wDesc.toNat)) && (described.kernelOr 0 3).wGen == 0 && c.state.holds),
      (let s := { described with hostHeld := [32] };
        ctx0 s (fun c => match s.readDescriptor c ((s.kernelOr 0 3).wDesc.toNat) with | .error true => true | _ => false)),
      machine.driverReaches,
      ctx0 machine (fun c => !(c.queueOr 1).dev && !(c.queueOr 1).en && decide ((0 : Word).toNat ≤ (c.queueOr 1).entries)),
      ctx0 (queued id machine) (fun c => (c.queueOr 1).en),
      (let s := faultQueue (ctxDo (fun c => { c with heldFaults := [aRecord] }) machine);
        ctx0 s (fun c => c.heldFaults == [aRecord] && c.heldRequests.isEmpty && c.adds.isEmpty && c.fqsize == 4 &&
          (s.headboxKey c .write 0x200000).isSome)),
      [launching, asking launching].all (fun launching => launching.grids.all (fun g => decide (g.uid < launching.fresh)) &&
       (launching.taken 0 0 1 1).elim false (fun x => !launching.barred && (launching.packetCause x.1 x.2.1 x.2.2).isNone &&
        (match launching.headboxRead x.1 x.2.2.args (launching.kernelOr 0 x.2.2.kid).kd.args with
          | .ok (a, u) => let g := newGrid u x.1 x.2.1 x.2.2 (launching.kernelOr 0 x.2.2.kid) a
                     decide (0 < g.x * g.y * g.z)
          | .error _ => false))),
      ({ launching with barred := true } : State).barred,
      (let s := { launching with kernels := [] };
        (s.taken 0 0 1 1).elim false (fun x => s.packetCause x.1 x.2.1 x.2.2 == some 2)),
      ((closing 0).grid? 0).elim false (fun g => g.state == .closing && !(closing 0).gridBusy g && ctx0 (closing 0) (fun c => c.adds.isEmpty)),
      (machine.grid? 0).elim false (fun g => g.state != .closing)] = true := by decide +kernel

/-- A partition with one command in progress. -/
def commanded (op : Nat) (s : State) : State :=
  { s with started := true, parts := s.parts.setIfInBounds 0 { Part.reset with mask := 0x3F, cmds := [cmdWord op 0 0], lastOp := BitVec.ofNat 8 op } }
def inState (x : CtxState) (s : State) : State := ctxDo (fun c => { c with state := x, savebase := 0x400000, savesize := 64 }) s

theorem witness_ContextCommands :
    every [
      (machine.part 0).cmds == [] && (machine.ctx? 0 5).isNone && (machine.ctx? 0 0).isSome,
      ctx0 (inState .suspended machine) (fun c => c.state == .suspended && decide (c.savebase.toNat + 0x1000 ≤ 0x6000000000) &&
        ((inState .suspended machine).saveAccess c 0 0 0x1000 false).isSome &&
        c.badImage (memSlice (memSetNat machine.mem 0x400008 4 8) 0x400000 0x1000)),
      (let s := { inState .suspended machine with mem := memSplice machine.mem 0x400000 0x1000 (((inState .suspended machine).ctx? 0 0).elim [] Ctx.image) };
        ctx0 s (fun c => (s.saveAccess c 0 0 0x1000 false).isSome && !c.badImage (memSlice s.mem 0x400000 0x1000))),
      (let s := { inState .suspended machine with acc := [] };
        ctx0 s (fun c => !s.rangeAllows c.headbox c.savebase.toNat 0x1000 false)),
      (let s := { inState .suspended machine with hostHeld := [lineOf 0x400000] };
        ctx0 s (fun c => s.rangeAllows c.headbox c.savebase.toNat 0x1000 false && (s.saveAccess c 0 0 0x1000 false).isNone)),
      machine.driverReaches,
      ctx0 machine (fun c => c.state == .active && !c.saving),
      [([], true), ([lineOf 0x400000], false)].all (fun x =>
        let s := { ctxDo (fun c => { c with saving := true }) (inState .active (commanded 2 machine)) with groups := [], warps := [], hostHeld := x.1 };
        ctx0 s (fun c => c.saving && s.quiet c && c.updating.isEmpty && (s.part 0).cmds.map cmdOp == [2] && (s.part 0).cmds.map cmdSlot == [0] &&
          decide (9 ≤ c.savesize.toNat) && decide (c.savebase.toNat + 0x1000 ≤ 0x6000000000) && (s.writeSave c 0 0 0x1000 c.image).isSome == x.2)),
      [([], true), ([lineOf 0x401000], false)].all (fun x =>
        let s := ctxDo (fun c => { c with placed := [(0x9000, 0x1000, 0)] }) { inState .destroying (commanded 4 machine) with groups := [], warps := [], hostHeld := x.1 };
        ctx0 s (fun c => c.state == .destroying && s.quiet c && s.remotes.isEmpty && s.flows.isEmpty && (s.part 0).cmds.map cmdOp == [4] &&
          ctx0 ((s.discardUnsent 0 0).clearDirectory c) (fun d => d.placed.isEmpty == x.2)))]
        = true := by decide +kernel

theorem witness_DriverWrites :
    every [
      machine.driverReaches && !machine.started && (commanded 1 machine).started && !(linkIs .down 13 machine).linkUp 13,
      (let s := { commanded 1 machine with ctxs := [] };
        s.started && (0x3F : Dword).toNat / 2 ^ 48 == 0 && (List.range 6).all (fun n => (0x3F : Dword).toNat / 2 ^ (8 * n + 6) % 4 == 0) &&
          (List.range 6).all (fun b => (List.range b).all (fun a => partMask 0x3F a &&& partMask 0x3F b == 0)) && s.ctxs.isEmpty),
      (0xB0000003 : Word).getLsbD 31 && (0xB0000003 : Word).toNat / 2 ^ 12 % 128 == 0 && decide ((0xB0000003 : Word).toNat / 2 ^ 19 % 8 < 6),
      !({ machine with firmware := { machine.firmware with verified := false } } : State).firmware.verified,
      !(machine.part 0).smpcfg.getLsbD 31,
      (({ machine with parts := machine.parts.setIfInBounds 0 { Part.reset with smpcfg := 0x80000000 } } : State).part 0).smpcfg.getLsbD 31,
      (machine.ctx? 0 5).isNone,
      (machine.debugTarget 0 0).isSome && group0 machine (fun g => g.part == 0 && g.kills.isEmpty && g.state == .running) &&
        machine.warps.all (fun w => w.group == 0 && w.role == .epilogue && w.index == 0) && ctx0 machine (fun c => c.state == .active),
      [(false, false), (false, true), (true, false)].all (fun x =>
        let s := warpDo (fun w => { w with frags := w.frags.map (fun f => if x.1 then { f with wait := .lock [0], latch := latched } else f) })
          (if x.2 then { groupDo (fun g => { g with places := g.places ++ [{ core := 1, granules := 1, spad := [], tiles := [] }] }) machine with
              sbuf := [entry 3 0x200000], sbufSeq := machine.sbufSeq.setIfInBounds 0 4, hostHeld := [0x4000] } else machine);
        let k : Kill := { role := .epilogue, index := 0, debug := true, upto := none };
        let held := fun (g : Group) => (s.setPart 0 { s.part 0 with dbgst := 0 }).setGroup { g with kills := [k] };
        group0 s (fun g => (s.warpOfKill 0 k).elim false (fun w => s.warp? w.uid == some w && w.frags.any Frag.acts == x.1 && g.ctx == 0 &&
          (match (held g).release w.core g.scope (s.storeNumber w.core) with
            | .ok _ => !x.2
            | .error (.wait _ _) => x.2
            | .error _ => false))))]
        = true := by decide +kernel

/-- Partition 0 owns every quire and samples every clock. -/
def sampling (size head : Word) (s : State) : State :=
  { s with parts := s.parts.setIfInBounds 0 { Part.reset with mask := 0x3F, smpcfg := 0x80000000, smpbase := 0x600000, smpsize := size, shead := head } }

theorem witness_SamplesAndSensors :
    every [
      (machine.partOfCore 0).isNone,
      (sampling 64 0 machine).partOfCore 0 == some 0 && (sampling 64 0 machine).sampleDue 0 0x80000000 &&
        (((sampling 64 0 machine).samplesOf 0).length == 1) && ((sampling 64 0 machine).lastSample 0).isNone &&
        ((sampling 64 0 machine).samplesOf 0).all (fun x => decide (x.place < 1024)) && (sampling 64 0 machine).exchanges 0 1 0x600000 &&
        (sampling 64 0 machine).hostHeld.isEmpty,
      (let s := linkIs .down 0 { sampling 64 0 machine with parts := (sampling 64 0 machine).parts.map (fun P => { P with smpbase := 0x3000000000 }) };
        (s.part 0).samples.isEmpty && !s.exchanges 0 1 0x3000000000),
      machine.firmware.verified && !({ machine with firmware := { machine.firmware with verified := false } } : State).firmware.verified,
      ((sampling 64 0 { machine with warps := [] }).samplesOf 0).isEmpty,
      ((sampling 64 64 machine).part 0).shead - ((sampling 64 64 machine).part 0).stail == ((sampling 64 64 machine).part 0).smpsize,
      (let s := { sampling 64 0 machine with clkStep := machine.clkStep.setIfInBounds 0 8, ticks := 2700000 };
        s.clkStep.getD 0 16 == 8 && s.partOfCore (8 * 0) == some 0 && s.mayRaise 0),
      !machine.mayRaise 0] = true := by decide +kernel

def anImage : FirmwareImage := { verifies := true, security := 0, digest := 1, version := 2 }

/-- An uncorrectable error in data held by a copy, an engine operation, a message that no receive has taken, or a fragment. -/
theorem witness_ErrorsAndFirmware :
    every [
      (({ machine with frames := [(0, 0xFFF, 0, 0)] } : State).frameOwner 0x10).isSome && (machine.frameOwner 0x10).isNone,
      (let c := aCopy 0 .cpy true; (holding [c] machine).copy? 0 == some c),
      (let s := queuedOp (otherOp 0 0 .zero) (kit tileKd machine); (s.engines.find? (fun x => x.uid == 0)).isSome && (s.group? 0).isSome),
      ((boxes 0xB0000003 [message true, message false] machine).mbox? 5).elim false (fun b => b.msgs[1]? == some (message false) && b.msgs[0]? == some (message true)),
      frag0 machine (fun w f => f.wait != .held && !f.parked && w.uid == 0 && f.id == 0),
      (machine.group? 0).elim false (fun g => (machine.ctxOf g).isSome),
      ctx0 machine (fun c => c.part == 0 && c.slot == 0 && c.state != .faulted && c.state != .destroying && c.fqsig == 0),
      machine.ctxs.length == 1,
      ctx0 (inState .faulted machine) (fun c => c.state == .faulted),
      machine.firmware.verified && machine.driverReaches && decide (machine.firmware.security < 1) && decide ((imageOf machine.firmware.running).security ≤ 1),
      !({ machine with firmware := { machine.firmware with verified := false } } : State).firmware.verified,
      (let f := { machine.firmware with staged := true, other := some (some anImage) };
        f.staged && anImage.verifies && decide (f.security ≤ anImage.security) && f.other == some (some anImage))] = true := by decide +kernel

/-! ### One instruction, or one step: results worked out by hand from the rule named -/

/-- The state after an instruction in its fixture. -/
def after (i : Instr) (hints : List Instr) (change : State → State) : Option State :=
  match exec i (fixture i hints change) with
  | .next t => some t
  | _ => none

/-- What holds of the one warp after an instruction. -/
def warpAfter (i : Instr) (hints : List Instr) (change : State → State) (p : Warp → Bool) : Bool :=
  (after i hints change).elim false (fun t => (t.warp? 0).elim false p)

def setS (l : List (Nat × Word)) : State → State := warpDo (fun w => l.foldl (fun w x => w.setS x.1 x.2) w)
def setV (l : List (Nat × Word)) : State → State := warpDo (fun w => l.foldl (fun w x => w.putV x.1 (perLane (fun _ => x.2))) w)

/-- R154: with a zero divisor the quotient is 0xFFFFFFFF. -/
theorem test_step_sdiv_by_zero :
    (match firstStep 0x02041460 with
      | .next t => (t.warp? 0).elim false (fun w => w.getS 4 == 0xFFFFFFFF && w.getS 5 == 0 && w.frags.map Frag.pc == [0x100004])
      | _ => false) = true := by decide +kernel

/-- The worked examples of R155. -/
theorem test_scalar_examples :
    every [
      warpAfter (.sdiv 4 5 6 0) [] (setS [(5, -7), (6, 2)]) (fun w => w.getS 4 == 0xFFFFFFFD),
      warpAfter (.srem 4 5 6 0) [] (setS [(5, -7), (6, 2)]) (fun w => w.getS 4 == 0xFFFFFFFF),
      warpAfter (.smulhu 4 5 6 0) [] (setS [(5, 0xFFFFFFFF), (6, 0xFFFFFFFF)]) (fun w => w.getS 4 == 0xFFFFFFFE),
      warpAfter (.smulhi 4 5 6 0) [] (setS [(5, 0xFFFFFFFF), (6, 0xFFFFFFFF)]) (fun w => w.getS 4 == 0),
      warpAfter (.saddc 4 5 6 0 0) [] (setS [(5, 0xFFFFFFFF), (6, 1)]) (fun w => w.getS 4 == 0 && w.getC 0),
      warpAfter (.scmp 1 2 2 3 0) [] (setS [(2, -1), (3, 0)]) (fun w => w.getC 1),
      warpAfter (.scmp 1 6 2 3 0) [] (setS [(2, -1), (3, 0)]) (fun w => !w.getC 1),
      warpAfter (.sbfe 7 8 0 1) [.himm 0x10408] (setS [(8, 0xF00)]) (fun w => w.getS 7 == 0xFFFFFFFF),
      warpAfter (.smovi 3 0xFFFE) [] id (fun w => w.getS 3 == 0xFFFFFFFE)] = true := by decide +kernel

/-- R55, R56: with I = 1 the sign-extended immediate, here -2, replaces b. -/
theorem test_immediate : warpAfter (.ssub 4 5 0 1) [.himm 0x3FFFFE] (setS [(5, 7)]) (fun w => w.getS 4 == 9) = true := by decide +kernel

/-- R59, R116: only the lanes of the predicate are written, and the others of an unmapped name read zero. -/
theorem test_vadd_predicated :
    warpAfter (.vadd 7 8 9 0) [.hpred 1 0] (fun s => warpDo (fun w => w.setK 1 0xF0) (setV [(8, 3), (9, 0xFFFFFFFF)] s))
      (fun w => (List.range 32).all (fun L => lane (w.getV 7) L == (if 4 ≤ L ∧ L < 8 then 2 else 0))) = true := by decide +kernel

/-- R182: 1.5 + 0.25 = 1.75 in binary32. -/
theorem test_vfadd :
    warpAfter (.vfadd 0 1 2 3 0) [] (setV [(2, 0x3FC00000), (3, 0x3E800000)]) (fun w => lane (w.getV 1) 31 == 0x3FE00000) = true := by
  decide +kernel

/-- R159: with the sense bit the lanes whose mask bit is clear go to the target, and the others go on. -/
theorem test_brak_splits :
    warpAfter (.brak 1 1 3) [] (warpDo (fun w => w.setK 1 0xFF)) (fun w =>
      w.frags.length == 2 && (w.frags.map (fun f => (f.lanes, f.pc))).contains (0xFFFFFF00, 0x10000C) &&
        (w.frags.map (fun f => (f.lanes, f.pc))).contains (0xFF, 0x100004)) = true := by decide +kernel

/-- R2, R210: a store through a record, read back by a load; least significant byte first. -/
theorem test_store_then_load :
    (let record : BitVec 128 := ({ clmp := false, imm := false, ro := false, swz := 0, base := 0x200000, esz := 2, str := 0, ext := 4 } : Buf).word
     (after (.sst 2 6 1 4) [] (fun s => warpDo (fun w => w.setD 1 record) (setS [(2, 0x11223344), (6, 3)] s))).elim false (fun t =>
       (warpAfter (.sld 4 6 1 4) [] (fun s => warpDo (fun w => w.setD 1 record) (setS [(6, 3)] { s with mem := t.mem, sbuf := t.sbuf, sbufSeq := t.sbufSeq }))
         (fun w => w.getS 4 == 0x11223344)) &&
       t.sbuf.map (fun e => (e.key, e.data)) == [(0x20000C, [0x44, 0x33, 0x22, 0x11])])) = true := by decide +kernel

/-- R167, R211, R398: an index beyond the bound parks the fragment with `BOUNDS`, code 4, at its chain head. -/
theorem test_bounds_parks :
    (after (.sld 4 6 1 4) [] (fun s => warpDo (fun w => w.setD 1 0) (setS [(6, 3)] (faultQueue s)))).elim false (fun t =>
      (t.warp? 0).elim false (fun w => w.frags.map (fun f => (f.wait, f.pc)) == [(.parked 0, 0x100000)]) &&
        memNat t.mem 0x20000C 4 % 65536 == 4 && (t.ctx? 0 0).elim false (fun c => c.fqhead == 1)) = true := by decide +kernel

/-- R335: a push fills slot 0 and RIX goes on; R337: a pop of a full slot takes it. -/
theorem test_qpush :
    (after (.qpush 0 1) [] (fun s => setS [(1, 0x42)] (kit queueKd s))).elim false (fun t =>
      (ringAt (t.spadOf 0 0) 0).slot 0 == 2 && (ringAt (t.spadOf 0 0) 0).rix == 1 && memNat (t.spadOf 0 0) 64 4 == 0x42) = true := by decide +kernel

/-- R355: the last arrival ends the phase. -/
theorem test_barv_completes :
    (after (.barv 0) [] (kit queueKd)).elim false (fun t => (t.barOf 0 0).pseq == 1 && (t.barOf 0 0).arr == 0) = true := by decide +kernel

/-- R407, R401: `TRAP 3` writes a record with code 15 and detail 3. -/
theorem test_trap :
    (after (.trap 3) [] faultQueue).elim false (fun t => memNat t.mem 0x20000C 4 == 15 && memNat t.mem 0x200018 4 == 3) = true := by decide +kernel

/-- R454, R459: a clock with nothing to do advances time alone. -/
theorem test_clock : (match step State.reset with | .next t => t.ticks == 1 && t.warps == [] && t.mem == [] | _ => false) = true := by
  decide +kernel

end Sys2Proof.Tests
end

section
/-! PROOF. From the body of an instruction to its completion. -/

namespace Sys2Proof.Machine

/-- An instruction that begins and whose body gives `d` completes with `d`. -/
theorem completes_of_body {i : Instr} {body : Body} {s : State} {J : Issue} {d : Done} (hx : exec i s = runInstr i body s)
    (hb : Begins i s J) (hd : body J = .ok d) : Completes i s J d := by
  obtain ⟨I, hI, hbegin⟩ := hb
  exact hx.trans (runInstr_completes hI hbegin hd)

end Sys2Proof.Machine
end

section
/-! PROOF. Branches (R42, R159, R160): which lanes go to the target. -/

namespace Sys2Proof.Machine

/-! ### The lanes that a branch sends -/

theorem Issue.sendLanes_none (J : Issue) (pc : Dword) : J.sendLanes 0 pc = { st := J.st } := by
  rw [Issue.sendLanes, if_pos rfl]

theorem Issue.sendLanes_active {J : Issue} (h : J.active ≠ 0) (pc : Dword) :
    J.sendLanes J.active pc = { st := J.st, flow := .jump pc } := by
  rw [Issue.sendLanes, if_neg h, if_pos rfl]

/-- R160: the fragment that a branch forms of the lanes `T`, at the target and with the stacks of the issuer. -/
def Issue.branchFrag (J : Issue) (T : Word) (pc : Dword) : Frag :=
  { Frag.fresh J.warp.nextFrag J.warp.freeRecord T pc with ret := J.frag.ret, conv := J.frag.conv, stallTill := J.stall }

/-- R160: the warp after a split, in which the issuer keeps its other lanes. -/
def Issue.branchSplit (J : Issue) (T : Word) (pc : Dword) : Warp :=
  let w := J.warp.setFrag { J.frag with lanes := J.active &&& ~~~T }
  { w with frags := w.frags ++ [J.branchFrag T pc], nextFrag := w.nextFrag + 1 }

theorem Issue.sendLanes_part {J : Issue} {T : Word} (h0 : T ≠ 0) (h : T ≠ J.active) (pc : Dword) :
    J.sendLanes T pc = { st := J.put (J.branchSplit T pc), flow := .jump (J.frag.pc + 4) } := by
  rw [Issue.sendLanes, if_neg h0, if_neg h]
  rfl

theorem Issue.sendAll_true {J : Issue} (h : J.active ≠ 0) (pc : Dword) :
    J.sendAll true pc = { st := J.st, flow := .jump pc } :=
  Issue.sendLanes_active h pc

theorem Issue.sendAll_false (J : Issue) (pc : Dword) : J.sendAll false pc = { st := J.st } :=
  Issue.sendLanes_none J pc

/-! ### When a branch is taken -/

/-- Sense bit 0 of `BRAC` takes the branch on a condition that holds, and sense bit 1 on one that does not. -/
theorem bne_sense (e : BitVec 1) : ((e == 0#1) != (e == 1#1)) = true := by
  obtain rfl | rfl := BitVec.eq_zero_or_eq_one e <;> rfl

/-- No lane of `x` is outside `y` exactly when `y` holds every lane of `x`. -/
theorem and_not_eq_zero_iff (x y : Word) : x &&& ~~~y = 0 ↔ x &&& y = x := by
  have split : (x &&& y) ||| (x &&& ~~~y) = x := by
    rw [← BitVec.and_or_distrib_left, BitVec.or_not_self, BitVec.and_allOnes]
  constructor <;> intro h
  · rw [h] at split
    exact BitVec.or_zero.symm.trans split
  · rw [← h, BitVec.and_assoc, BitVec.and_not_self]
    exact BitVec.and_zero

/-! ### The branches complete -/

section
variable {s : State} {J : Issue}

theorem bra_completes {o : BitVec 22} (hb : Begins (.bra o) s J) : Completes (.bra o) s J (J.sendAll true (J.target o)) :=
  completes_of_body rfl hb rfl

theorem brac_completes {c : BitVec 3} {e : BitVec 1} {o : BitVec 18} (hb : Begins (.brac c e o) s J) :
    Completes (.brac c e o) s J (J.sendAll (J.view.getC c.toNat != (e == 1#1)) (J.target o)) :=
  completes_of_body rfl hb rfl

theorem brak_completes {k : BitVec 3} {e : BitVec 1} {o : BitVec 18} (hb : Begins (.brak k e o) s J) :
    Completes (.brak k e o) s J (J.sendLanes (J.active &&& J.branchMask k e) (J.target o)) :=
  completes_of_body rfl hb rfl

theorem braka_completes {k : BitVec 3} {e : BitVec 1} {o : BitVec 18} (hb : Begins (.braka k e o) s J) :
    Completes (.braka k e o) s J (J.sendAll (J.active &&& ~~~(J.branchMask k e) == 0) (J.target o)) :=
  completes_of_body rfl hb rfl

theorem brac_taken (ha : J.active ≠ 0) {c : BitVec 3} {e : BitVec 1} {o : BitVec 18} (hb : Begins (.brac c e o) s J)
    (hc : J.view.getC c.toNat = (e == 0#1)) : Completes (.brac c e o) s J { st := J.st, flow := .jump (J.target o) } := by
  simpa only [hc, bne_sense, Issue.sendAll_true ha] using brac_completes hb

theorem brac_not_taken {c : BitVec 3} {e : BitVec 1} {o : BitVec 18} (hb : Begins (.brac c e o) s J)
    (hc : J.view.getC c.toNat = (e == 1#1)) : Completes (.brac c e o) s J { st := J.st } := by
  simpa only [hc, bne_self_eq_false, Issue.sendAll_false] using brac_completes hb

theorem brak_all (ha : J.active ≠ 0) {k : BitVec 3} {e : BitVec 1} {o : BitVec 18} (hb : Begins (.brak k e o) s J)
    (hT : J.active &&& J.branchMask k e = J.active) :
    Completes (.brak k e o) s J { st := J.st, flow := .jump (J.target o) } := by
  simpa only [hT, Issue.sendLanes_active ha] using brak_completes hb

theorem brak_none {k : BitVec 3} {e : BitVec 1} {o : BitVec 18} (hb : Begins (.brak k e o) s J)
    (hT : J.active &&& J.branchMask k e = 0) : Completes (.brak k e o) s J { st := J.st } := by
  simpa only [hT, Issue.sendLanes_none] using brak_completes hb

theorem brak_part {k : BitVec 3} {e : BitVec 1} {o : BitVec 18} (hb : Begins (.brak k e o) s J)
    (h0 : J.active &&& J.branchMask k e ≠ 0) (hT : J.active &&& J.branchMask k e ≠ J.active) :
    Completes (.brak k e o) s J
      { st := J.put (J.branchSplit (J.active &&& J.branchMask k e) (J.target o)), flow := .jump (J.frag.pc + 4) } := by
  simpa only [Issue.sendLanes_part h0 hT] using brak_completes hb

theorem braka_all (ha : J.active ≠ 0) {k : BitVec 3} {e : BitVec 1} {o : BitVec 18} (hb : Begins (.braka k e o) s J)
    (hT : J.active &&& J.branchMask k e = J.active) :
    Completes (.braka k e o) s J { st := J.st, flow := .jump (J.target o) } := by
  have hz : (J.active &&& ~~~(J.branchMask k e) == 0) = true := beq_iff_eq.mpr ((and_not_eq_zero_iff _ _).mpr hT)
  simpa only [hz, Issue.sendAll_true ha] using braka_completes hb

theorem braka_some_not {k : BitVec 3} {e : BitVec 1} {o : BitVec 18} (hb : Begins (.braka k e o) s J)
    (hT : J.active &&& J.branchMask k e ≠ J.active) : Completes (.braka k e o) s J { st := J.st } := by
  have hz : (J.active &&& ~~~(J.branchMask k e) == 0) = false :=
    beq_eq_false_iff_ne.mpr (fun h => hT ((and_not_eq_zero_iff _ _).mp h))
  simpa only [hz, Issue.sendAll_false] using braka_completes hb

/-- `LOOP` goes back to its target while its counter, less one, is not zero (R159). -/
theorem loop_again {a : BitVec 6} {n : BitVec 16} (hb : Begins (.loop a n) s J) (hx : J.view.getS a.toNat ≠ 1) :
    Completes (.loop a n) s J
      { st := J.put (J.warp.setS a.toNat (J.view.getS a.toNat - 1)), flow := .jump (J.target n) } := by
  have hx' : J.view.getS a.toNat - 1 ≠ 0 := fun h => hx (BitVec.sub_eq_iff_eq_add.mp h)
  exact completes_of_body rfl hb (congrArg Except.ok (if_neg hx'))

theorem loop_ends {a : BitVec 6} {n : BitVec 16} (hb : Begins (.loop a n) s J) (hx : J.view.getS a.toNat = 1) :
    Completes (.loop a n) s J { st := J.put (J.warp.setS a.toNat 0) } := by
  have hx' : J.view.getS a.toNat - 1 = 0 := hx ▸ BitVec.sub_self 1
  exact completes_of_body rfl hb (congrArg Except.ok ((if_pos hx').trans (by rw [hx'])))

end

end Sys2Proof.Machine

open Sys2Proof Sys2Proof.Machine

/-- Settles O6: every branch sends its lanes by `Issue.sendLanes`, whose three cases are those of R159 and R160. -/
theorem branchesSendLanes : Obligations.BranchesSendLanes := by
  unfold Obligations.BranchesSendLanes
  intro s J o o' c k e a n there bits T ha
  exact ⟨fun hb => Issue.sendAll_true ha _ ▸ bra_completes hb, brac_taken ha, brac_not_taken, brak_all ha, brak_none, brak_part,
    braka_all ha, braka_some_not, loop_again, loop_ends⟩

end

section
/-! PROOF. Scalar results (R152 to R155): what each value function computes, as an exact integer modulo the register's width. -/

namespace Sys2Proof.Machine

/-! ### Shifts and rotations of any width -/

theorem shiftLeft_exact {w : Nat} (x : BitVec w) (n : Nat) : x <<< n = BitVec.ofNat w (x.toNat * 2 ^ n) := by
  apply BitVec.eq_of_toNat_eq
  rw [BitVec.toNat_shiftLeft, Nat.shiftLeft_eq, BitVec.toNat_ofNat]

theorem ushiftRight_exact {w : Nat} (x : BitVec w) (n : Nat) : x >>> n = BitVec.ofNat w (x.toNat / 2 ^ n) := by
  have hlt : x.toNat / 2 ^ n < 2 ^ w := Nat.lt_of_le_of_lt (Nat.div_le_self _ _) x.isLt
  apply BitVec.eq_of_toNat_eq
  rw [BitVec.toNat_ushiftRight, Nat.shiftRight_eq_div_pow, BitVec.toNat_ofNat, Nat.mod_eq_of_lt hlt]

theorem sshiftRight_exact {w : Nat} (x : BitVec w) (n : Nat) : x.sshiftRight n = BitVec.ofInt w (x.toInt / 2 ^ n) := by
  rw [← BitVec.ofInt_toInt (x := x.sshiftRight n), BitVec.toInt_sshiftRight, Int.shiftRight_eq_div_pow, Int.natCast_pow]
  rfl

/-- The two parts that a rotation joins share no bit, so that their union is their sum. -/
theorem rotateLeft_exact {w : Nat} (x : BitVec w) {n : Nat} (hn : n < w) :
    x.rotateLeft n = BitVec.ofNat w (x.toNat * 2 ^ n + x.toNat / 2 ^ (w - n)) := by
  have hw : 2 ^ (w - n) * 2 ^ n = 2 ^ w := by rw [← Nat.pow_add, Nat.sub_add_cancel (Nat.le_of_lt hn)]
  have hlow : x.toNat / 2 ^ (w - n) < 2 ^ n := Nat.div_lt_of_lt_mul (hw ▸ x.isLt)
  have hhigh : x.toNat <<< n % 2 ^ w = (x.toNat % 2 ^ (w - n)) <<< n := by
    rw [Nat.shiftLeft_eq, Nat.shiftLeft_eq, ← Nat.mul_mod_mul_right, hw]
  have hsum : (x.rotateLeft n).toNat = x.toNat <<< n % 2 ^ w + x.toNat / 2 ^ (w - n) := by
    rw [BitVec.toNat_rotateLeft, Nat.mod_eq_of_lt hn, hhigh, Nat.shiftRight_eq_div_pow, Nat.shiftLeft_add_eq_or_of_lt hlow]
  apply BitVec.eq_of_toNat_eq
  rw [BitVec.toNat_ofNat, ← Nat.shiftLeft_eq, ← Nat.mod_add_mod, ← hsum, Nat.mod_eq_of_lt (x.rotateLeft n).isLt]

/-! ### Sums, products, quotients (R152, R154) -/

theorem add_exact {w : Nat} (x y : BitVec w) : x + y = BitVec.ofNat w (x.toNat + y.toNat) := by
  apply BitVec.eq_of_toNat_eq
  rw [BitVec.toNat_add, BitVec.toNat_ofNat]

theorem sub_exact {w : Nat} (x y : BitVec w) : x - y = BitVec.ofInt w (x.toInt - y.toInt) := by
  apply BitVec.eq_of_toInt_eq
  rw [BitVec.toInt_sub, BitVec.toInt_ofInt]

theorem mul_exact {w : Nat} (x y : BitVec w) : x * y = BitVec.ofNat w (x.toNat * y.toNat) := by
  apply BitVec.eq_of_toNat_eq
  rw [BitVec.toNat_mul, BitVec.toNat_ofNat]

theorem smadV_exact (a b d : Word) : smadV a b d = BitVec.ofNat 32 (d.toNat + a.toNat * b.toNat) := by
  simp only [smadV, BitVec.ofNat_add, BitVec.ofNat_mul, BitVec.ofNat_toNat, BitVec.setWidth_eq]

theorem sremV_exact (a b d : Word) : sremV a b d =
    if b = 0 then a else if a = 0x80000000 ∧ b = 0xFFFFFFFF then 0
    else BitVec.ofInt 32 (a.toInt - b.toInt * a.toInt.tdiv b.toInt) := by
  rw [sremV, Int.tmod_def]

theorem sremuV_exact (a b d : Word) :
    sremuV a b d = if b = 0 then a else BitVec.ofNat 32 (a.toNat - b.toNat * (a.toNat / b.toNat)) := by
  rw [sremuV, Nat.mod_eq_sub]

/-! ### Minimum and maximum -/

/-- A choice by signed `<` is one by `≤` when it does not matter for equal words. -/
theorem ite_slt_exact {a b u v : Word} (h : a = b → u = v) :
    (if a.slt b then u else v) = if a.toInt ≤ b.toInt then u else v := by
  by_cases heq : a.toInt = b.toInt
  · rw [h (BitVec.eq_of_toInt_eq heq), ite_self, ite_self]
  · have hlt : a.toInt < b.toInt ↔ a.toInt ≤ b.toInt := by omega
    simp only [BitVec.slt_iff_toInt_lt, hlt]

theorem ite_ult_exact {a b u v : Word} (h : a = b → u = v) :
    (if a.ult b then u else v) = if a.toNat ≤ b.toNat then u else v := by
  by_cases heq : a.toNat = b.toNat
  · rw [h (BitVec.eq_of_toNat_eq heq), ite_self, ite_self]
  · have hlt : a.toNat < b.toNat ↔ a.toNat ≤ b.toNat := by omega
    simp only [BitVec.ult_iff_toNat_lt, hlt]

/-! ### Bit fields (R153) -/

theorem wrapTo_exact (w : Nat) (x : Int) : BitVec.ofNat w (wrapTo w x) = BitVec.ofInt w x := by
  have hpos : (0 : Int) < (2 ^ w : Nat) := Int.natCast_pos.mpr (Nat.two_pow_pos w)
  have hnonneg : 0 ≤ x % (2 ^ w : Nat) := Int.emod_nonneg _ (Int.ne_of_gt hpos)
  have hlt : x % (2 ^ w : Nat) < (2 ^ w : Nat) := Int.emod_lt_of_pos _ hpos
  apply BitVec.eq_of_toNat_eq
  rw [BitVec.toNat_ofNat, BitVec.toNat_ofInt, wrapTo, Nat.mod_eq_of_lt (by omega)]

theorem signedOf_of_lt {w x : Nat} (h : x < 2 ^ w) : signedOf w x = if 2 * x < 2 ^ w then (x : Int) else x - 2 ^ w := by
  rw [signedOf, Nat.mod_eq_of_lt h]

/-- A field of `len` bits extended by its sign: the top bit of the field says whether `2 ^ len` is taken off. -/
theorem signExtended_field {len f : Nat} (hlen : 0 < len) (hf : f < 2 ^ len) :
    BitVec.ofNat 32 (wrapTo 32 (signedOf len f)) =
      if 2 ^ (len - 1) ≤ f then BitVec.ofInt 32 ((f : Int) - 2 ^ len) else BitVec.ofNat 32 f := by
  have htop : 2 ^ (len - 1) ≤ f ↔ ¬2 * f < 2 ^ len := by
    rw [← Nat.two_pow_pred_mul_two hlen]
    omega
  rw [wrapTo_exact, signedOf_of_lt hf]
  by_cases h : 2 * f < 2 ^ len
  · rw [if_pos h, if_neg (fun hge => htop.mp hge h), BitVec.ofInt_natCast]
  · rw [if_neg h, if_pos (htop.mpr h)]

/-- The position of a field is the low five bits of its control word. -/
theorem field_position (x : Nat) : field x 0 5 = x % 32 := by
  show x / 1 % 32 = x % 32
  rw [Nat.div_one]

theorem sbfeV_exact (a b d : Word) : sbfeV a b d =
    (let len : Nat := min (b.toNat / 2 ^ 8 % 64) 32
     let f : Nat := a.toNat / 2 ^ (b.toNat % 32) % 2 ^ len
     if b.getLsbD 16 = true ∧ 0 < len ∧ 2 ^ (len - 1) ≤ f then BitVec.ofInt 32 ((f : Int) - 2 ^ len) else BitVec.ofNat 32 f) := by
  extract_lets len f
  have hf : f < 2 ^ len := Nat.mod_lt _ (Nat.two_pow_pos _)
  have hdef : sbfeV a b d =
      if b.getLsbD 16 && decide (0 < len) then BitVec.ofNat 32 (wrapTo 32 (signedOf len f)) else BitVec.ofNat 32 f := by
    rw [sbfeV, bitExtract, field_position]
    rfl
  simp only [hdef, Bool.and_eq_true, decide_eq_true_iff]
  by_cases hs : b.getLsbD 16 = true ∧ 0 < len
  · obtain ⟨hsgn, hlen⟩ := hs
    rw [if_pos ⟨hsgn, hlen⟩, signExtended_field hlen hf]
    simp only [hsgn, hlen, true_and]
  · rw [if_neg hs, if_neg (fun h => hs ⟨h.1, h.2.1⟩)]

theorem sbfiV_exact (a b d : Word) : sbfiV a b d =
    (let len : Nat := min (b.toNat / 2 ^ 8 % 64) 32
     let mask := BitVec.ofNat 32 ((2 ^ len - 1) * 2 ^ (b.toNat % 32))
     (d &&& ~~~mask) ||| (BitVec.ofNat 32 (a.toNat * 2 ^ (b.toNat % 32)) &&& mask)) := by
  rw [sbfiV, bitInsert, field_position]
  rfl

/-! ### Halves and counts of bits -/

theorem smovhiV_exact (a b d : Word) :
    smovhiV a b d = BitVec.ofNat 32 (a.toNat % 2 ^ 16 * 2 ^ 16 + d.toNat % 2 ^ 16) := by
  have hlow : d.toNat % 2 ^ 16 < 2 ^ 16 := Nat.mod_lt _ (by decide)
  have hnat : (smovhiV a b d).toNat = a.toNat % 2 ^ 16 * 2 ^ 16 + d.toNat % 2 ^ 16 := by
    rw [smovhiV, BitVec.toNat_append, BitVec.extractLsb'_toNat, BitVec.extractLsb'_toNat, Nat.shiftRight_zero,
      Nat.shiftRight_zero, ← Nat.shiftLeft_add_eq_or_of_lt hlow, Nat.shiftLeft_eq]
  rw [← hnat, BitVec.ofNat_toNat, BitVec.setWidth_eq]

theorem onesBelow_eq_countP (p : Nat → Bool) : ∀ n, onesBelow p n = (List.range n).countP p
  | 0 => rfl
  | n + 1 => by
    rw [onesBelow, onesBelow_eq_countP p n, List.range_succ, List.countP_append, List.countP_singleton]

theorem leadingZeros_le (p : Nat → Bool) : ∀ n, leadingZeros p n ≤ n
  | 0 => Nat.le_refl 0
  | n + 1 => by
    have ih := leadingZeros_le p n
    rw [leadingZeros]
    split <;> omega

theorem lt_two_pow_of_testBit_false {x n : Nat} (h : x < 2 ^ (n + 1)) (hb : x.testBit n = false) : x < 2 ^ n := by
  refine Nat.lt_pow_two_of_testBit x (fun i hi => ?_)
  obtain rfl | hlt := Nat.eq_or_lt_of_le hi
  · exact hb
  · exact Nat.testBit_lt_two_pow (Nat.lt_of_lt_of_le h (Nat.pow_le_pow_right (by decide) hlt))

/-- The highest one bit of a number below `2 ^ n` stands just below its leading zeros. -/
theorem leadingZeros_bounds {x : Nat} : ∀ {n : Nat}, x < 2 ^ n →
    x < 2 ^ (n - leadingZeros x.testBit n) ∧
      (leadingZeros x.testBit n < n → 2 ^ (n - 1 - leadingZeros x.testBit n) ≤ x)
  | 0, h => ⟨h, fun hz => absurd hz (Nat.not_lt_zero _)⟩
  | n + 1, h => by
    cases hb : x.testBit n with
    | true =>
      have hz : leadingZeros x.testBit (n + 1) = 0 := by rw [leadingZeros, if_pos hb]
      rw [hz]
      exact ⟨h, fun _ => Nat.ge_two_pow_of_testBit hb⟩
    | false =>
      have hz : leadingZeros x.testBit (n + 1) = leadingZeros x.testBit n + 1 := by
        rw [leadingZeros, if_neg (Bool.not_eq_true _ ▸ hb)]
      obtain ⟨hlt, hge⟩ := leadingZeros_bounds (lt_two_pow_of_testBit_false h hb)
      have hexp : n + 1 - 1 - (leadingZeros x.testBit n + 1) = n - 1 - leadingZeros x.testBit n := by omega
      rw [hz, Nat.add_sub_add_right, hexp]
      exact ⟨hlt, fun hlt' => hge (Nat.lt_of_succ_lt_succ hlt')⟩

end Sys2Proof.Machine
end

section
/-! PROOF. The instructions of class 0x0 complete with these results, and have the latencies of R154. -/

namespace Sys2Proof.Machine

/-! ### Two operands (R152 to R154) -/

/-- The instruction of a row of the table of two-operand forms completes with the result of that row (R152). -/
def RowCompletes (r : (BitVec 6 → BitVec 6 → BitVec 6 → BitVec 1 → Instr) × (Word → Word → Word → Word)) : Prop :=
  ∀ (s : State) (J : Issue) (d a b : BitVec 6) (ib : BitVec 1), Begins (r.1 d a b ib) s J →
    Completes (r.1 d a b ib) s J (J.doneS d (r.2 (J.sv a) (J.sb b ib) (J.sv d)))

/-- A form whose meaning is a scalar body completes with any result that its value function `f` is shown to have. -/
theorem rowCompletes_of_body {mk : BitVec 6 → BitVec 6 → BitVec 6 → BitVec 1 → Instr} {g : Word → Word → Word → Word}
    (f : Word → Word → Word → Word)
    (hx : ∀ d a b ib s, exec (mk d a b ib) s = runInstr (mk d a b ib) (scalarBody d a b ib f) s)
    (hf : ∀ a b d, f a b d = g a b d) : RowCompletes (mk, g) :=
  fun s _ d a b ib hb => completes_of_body (hx d a b ib s) hb (by rw [scalarBody, hf])

theorem scalarTable_completes : ∀ r ∈ scalarTable, RowCompletes r := by
  simp only [scalarTable, List.forall_mem_cons]
  refine ⟨?sadd, ?ssub, ?smul, ?smulhi, ?smulhu, ?smad, ?sdiv, ?sdivu, ?srem, ?sremu, ?sand, ?sor, ?sxor, ?sandn, ?sshl, ?sshr,
    ?ssra, ?srol, ?smin, ?smax, ?sminu, ?smaxu, ?sbfe, ?sbfi, List.forall_mem_nil _⟩
  case sadd => exact rowCompletes_of_body saddV (fun _ _ _ _ _ => rfl) (fun a b _ => add_exact a b)
  case ssub => exact rowCompletes_of_body ssubV (fun _ _ _ _ _ => rfl) (fun a b _ => sub_exact a b)
  case smul => exact rowCompletes_of_body smulV (fun _ _ _ _ _ => rfl) (fun a b _ => mul_exact a b)
  case smulhi => exact rowCompletes_of_body smulhiV (fun _ _ _ _ _ => rfl) (fun _ _ _ => rfl)
  case smulhu => exact rowCompletes_of_body smulhuV (fun _ _ _ _ _ => rfl) (fun _ _ _ => rfl)
  case smad => exact rowCompletes_of_body smadV (fun _ _ _ _ _ => rfl) smadV_exact
  case sdiv => exact rowCompletes_of_body sdivV (fun _ _ _ _ _ => rfl) (fun _ _ _ => rfl)
  case sdivu => exact rowCompletes_of_body sdivuV (fun _ _ _ _ _ => rfl) (fun _ _ _ => rfl)
  case srem => exact rowCompletes_of_body sremV (fun _ _ _ _ _ => rfl) sremV_exact
  case sremu => exact rowCompletes_of_body sremuV (fun _ _ _ _ _ => rfl) sremuV_exact
  case sand => exact rowCompletes_of_body sandV (fun _ _ _ _ _ => rfl) (fun _ _ _ => rfl)
  case sor => exact rowCompletes_of_body sorV (fun _ _ _ _ _ => rfl) (fun _ _ _ => rfl)
  case sxor => exact rowCompletes_of_body sxorV (fun _ _ _ _ _ => rfl) (fun _ _ _ => rfl)
  case sandn => exact rowCompletes_of_body sandnV (fun _ _ _ _ _ => rfl) (fun _ _ _ => rfl)
  case sshl => exact rowCompletes_of_body sshlV (fun _ _ _ _ _ => rfl) (fun a _ _ => shiftLeft_exact a _)
  case sshr => exact rowCompletes_of_body sshrV (fun _ _ _ _ _ => rfl) (fun a _ _ => ushiftRight_exact a _)
  case ssra => exact rowCompletes_of_body ssraV (fun _ _ _ _ _ => rfl) (fun a _ _ => sshiftRight_exact a _)
  case srol =>
    exact rowCompletes_of_body srolV (fun _ _ _ _ _ => rfl) (fun a _ _ => rotateLeft_exact a (Nat.mod_lt _ (by decide)))
  case smin => exact rowCompletes_of_body sminV (fun _ _ _ _ _ => rfl) (fun _ _ _ => ite_slt_exact id)
  case smax => exact rowCompletes_of_body smaxV (fun _ _ _ _ _ => rfl) (fun _ _ _ => ite_slt_exact Eq.symm)
  case sminu => exact rowCompletes_of_body sminuV (fun _ _ _ _ _ => rfl) (fun _ _ _ => ite_ult_exact id)
  case smaxu => exact rowCompletes_of_body smaxuV (fun _ _ _ _ _ => rfl) (fun _ _ _ => ite_ult_exact Eq.symm)
  case sbfe => exact rowCompletes_of_body sbfeV (fun _ _ _ _ _ => rfl) sbfeV_exact
  case sbfi => exact rowCompletes_of_body sbfiV (fun _ _ _ _ _ => rfl) sbfiV_exact

/-! ### Carries, one operand, immediates (R152) -/

section
variable {s : State} {J : Issue} {d a b : BitVec 6} {ib : BitVec 1} {c : BitVec 3}

theorem saddc_completes (hb : Begins (.saddc d a b ib c) s J) :
    let t := (J.sv a).toNat + (J.sb b ib).toNat + (J.view.getC c.toNat).toNat
    Completes (.saddc d a b ib c) s J
      { st := J.put ((J.warp.setS d.toNat (BitVec.ofNat 32 t)).setC c.toNat (decide (2 ^ 32 ≤ t))) } :=
  completes_of_body rfl hb (by cases J.view.getC c.toNat <;> rfl)

theorem ssubb_completes (hb : Begins (.ssubb d a b ib c) s J) :
    Completes (.ssubb d a b ib c) s J
      { st := J.put ((J.warp.setS d.toNat (J.sv a - J.sb b ib - BitVec.ofNat 32 (J.view.getC c.toNat).toNat)).setC c.toNat
          (decide ((J.sv a).toNat < (J.sb b ib).toNat + (J.view.getC c.toNat).toNat))) } :=
  completes_of_body rfl hb (by cases J.view.getC c.toNat <;> rfl)

theorem smovhi_completes {n : BitVec 16} (hb : Begins (.smovhi d n) s J) :
    Completes (.smovhi d n) s J
      (J.doneS d (BitVec.ofNat 32 ((J.h.imm.getD (n.setWidth 32)).toNat % 2 ^ 16 * 2 ^ 16 + (J.sv d).toNat % 2 ^ 16))) :=
  completes_of_body rfl hb (by rw [smovhiV_exact])

theorem sclz_completes (hb : Begins (.sclz d a) s J) :
    ∃ z, Completes (.sclz d a) s J (J.doneS d (BitVec.ofNat 32 z)) ∧ z ≤ 32 ∧ (J.sv a).toNat < 2 ^ (32 - z) ∧
      (z < 32 → 2 ^ (31 - z) ≤ (J.sv a).toNat) :=
  ⟨leadingZeros (J.sv a).getLsbD 32, completes_of_body rfl hb rfl, leadingZeros_le _ _, leadingZeros_bounds (J.sv a).isLt⟩

theorem spopc_completes (hb : Begins (.spopc d a) s J) :
    Completes (.spopc d a) s J (J.doneS d (BitVec.ofNat 32 ((List.range 32).countP (J.sv a).getLsbD))) :=
  completes_of_body rfl hb (by rw [scalarUnary, spopcV, popCount, onesBelow_eq_countP])

/-! ### Pairs (R155) -/

theorem sadd64_completes (hb : Begins (.sadd64 d a b ib) s J) :
    Completes (.sadd64 d a b ib) s J (J.doneP d (BitVec.ofNat 64 ((J.pv a).toNat + (J.pb b ib).toNat))) :=
  completes_of_body rfl hb (by rw [sadd64V, add_exact])

theorem ssub64_completes (hb : Begins (.ssub64 d a b ib) s J) :
    Completes (.ssub64 d a b ib) s J (J.doneP d (BitVec.ofInt 64 ((J.pv a).toInt - (J.pb b ib).toInt))) :=
  completes_of_body rfl hb (by rw [ssub64V, sub_exact])

/-- The count of a pair shift is the low six bits of its word (R155). -/
theorem toNat_setWidth_word (x : Word) : (x.setWidth 64).toNat = x.toNat :=
  BitVec.toNat_setWidth_of_le (by decide)

theorem sshl64_completes (hb : Begins (.sshl64 d a b ib) s J) :
    Completes (.sshl64 d a b ib) s J (J.doneP d (BitVec.ofNat 64 ((J.pv a).toNat * 2 ^ ((J.sb b ib).toNat % 64)))) :=
  completes_of_body rfl hb (by rw [sshl64V, shiftLeft_exact, toNat_setWidth_word])

theorem sshr64_completes (hb : Begins (.sshr64 d a b ib) s J) :
    Completes (.sshr64 d a b ib) s J (J.doneP d (BitVec.ofNat 64 ((J.pv a).toNat / 2 ^ ((J.sb b ib).toNat % 64)))) :=
  completes_of_body rfl hb (by rw [sshr64V, ushiftRight_exact, toNat_setWidth_word])

end

/-! ### Latencies (R62, R154) -/

/-- A shift past the right part of a word leaves a shift of its left part. -/
theorem append_shiftRight {n m : Nat} (x : BitVec n) (y : BitVec m) {j : Nat} (h : m ≤ j) :
    (x ++ y).toNat >>> j = x.toNat >>> (j - m) := by
  have hy : y.toNat >>> m = 0 := by rw [Nat.shiftRight_eq_div_pow, Nat.div_eq_of_lt y.isLt]
  obtain ⟨k, rfl⟩ := Nat.exists_eq_add_of_le h
  rw [Nat.shiftRight_add, BitVec.toNat_append, Nat.shiftRight_or_distrib, Nat.shiftLeft_shiftRight, hy, Nat.or_zero,
    Nat.add_sub_cancel_left]

/-- The forms of class 0x0 (R45, R152). -/
def isClass0 : Instr → Bool
  | .sadd .. | .saddc .. | .ssub .. | .ssubb .. | .smul .. | .smulhi .. | .smulhu .. | .smad .. | .sdiv .. | .sdivu .. | .srem ..
  | .sremu .. | .sand .. | .sor .. | .sxor .. | .sandn .. | .sshl .. | .sshr .. | .ssra .. | .srol .. | .smin .. | .smax ..
  | .sminu .. | .smaxu .. | .scmp .. | .ssel .. | .smov .. | .smovi .. | .smovhi .. | .sclz .. | .spopc .. | .sbfe .. | .sbfi ..
  | .sadd64 .. | .ssub64 .. | .sshl64 .. | .sshr64 .. => true
  | _ => false

/-- The word of any other form has a bit in its class field; an event has no word. -/
theorem class_ne_zero_of_encode {i : Instr} {w : Word} (h0 : isClass0 i = false) (hw : Sys2Proof.encode i = some w) :
    w.toNat >>> 28 ≠ 0 := by
  intro hc
  cases i with
  | fence | ret | cvwait | exit | nop | yield | tfence | cpyw | gleave =>
    cases hw
    cases hc
  | _ =>
    cases h0 <;> cases hw <;>
    · simp (disch := decide) only [append_shiftRight] at hc
      cases hc

/-- The function code of a class 0x0 word tells the four division forms (R154). -/
theorem class0_latency {i : Instr} {w : Word} (h0 : isClass0 i = true) (hw : Sys2Proof.encode i = some w) :
    (shape i).latency = if w.toNat >>> 22 ∈ [8, 9, 10, 11] then 0 else 2 := by
  cases i <;> cases h0 <;> cases hw <;>
  · simp (disch := decide) only [append_shiftRight]
    rfl

end Sys2Proof.Machine

open Sys2Proof Sys2Proof.Machine

/-- Settles O1: each form completes with the value function of its row, which is the exact result of R152 to R155 modulo the width of
its destination; the latencies go by the function code of the word. -/
theorem scalarResults : Obligations.ScalarResults := by
  unfold Obligations.ScalarResults
  refine ⟨scalarTable_completes, ?latency, ?single, ?pairs⟩
  case latency =>
    intro i w hw hc
    rw [← Nat.shiftRight_eq_div_pow] at hc ⊢
    exact class0_latency (eq_true_of_ne_false (fun h0 => class_ne_zero_of_encode h0 hw hc)) hw
  case single =>
    intro s J d a b ib c cc n
    exact ⟨saddc_completes, ssubb_completes, fun hb => completes_of_body rfl hb rfl, fun hb => completes_of_body rfl hb rfl,
      fun hb => completes_of_body rfl hb rfl, fun hb => completes_of_body rfl hb rfl, smovhi_completes, sclz_completes,
      spopc_completes⟩
  case pairs =>
    intro s J d a b ib
    exact ⟨sadd64_completes, ssub64_completes, sshl64_completes, sshr64_completes⟩

end

section
/-! PROOF. Sub-elements of a lane (R172): what the model's lane function stores at each position, as an exact integer clamped and
reduced modulo `2 ^ w`. -/

namespace Sys2Proof.Machine

/-! ### Words built from sub-elements -/

theorem joinSubs_lt (w : Nat) (f : Nat → Nat) : ∀ n, joinSubs w f n < 2 ^ (w * n)
  | 0 => Nat.two_pow_pos _
  | n + 1 => by
    have hlow := joinSubs_lt w f n
    have hlt : f n % 2 ^ w < 2 ^ w := Nat.mod_lt _ (Nat.two_pow_pos w)
    calc joinSubs w f n + f n % 2 ^ w * 2 ^ (w * n)
        < (f n % 2 ^ w + 1) * 2 ^ (w * n) := by rw [Nat.succ_mul]; omega
      _ ≤ 2 ^ w * 2 ^ (w * n) := Nat.mul_le_mul_right _ hlt
      _ = 2 ^ (w * (n + 1)) := by rw [← Nat.pow_add, Nat.mul_succ, Nat.add_comm]

/-- A sub-element reads back at its own position: those below it are cut off by the division, those above by the remainder. -/
theorem field_joinSubs (w : Nat) (f : Nat → Nat) {j : Nat} : ∀ {n}, j < n → field (joinSubs w f n) (w * j) w = f j % 2 ^ w
  | n + 1, hj => by
    rw [field, joinSubs]
    obtain rfl | hlt := Nat.eq_or_lt_of_le (Nat.le_of_lt_succ hj)
    · rw [Nat.add_mul_div_right _ _ (Nat.two_pow_pos _), Nat.div_eq_of_lt (joinSubs_lt w f j), Nat.zero_add, Nat.mod_mod]
    · have hpow : 2 ^ (w * n) = 2 ^ (w * j) * (2 ^ w * 2 ^ (w * (n - j - 1))) := by
        rw [← Nat.pow_add, ← Nat.pow_add, Nat.add_comm w, ← Nat.mul_succ, ← Nat.mul_add]
        congr 2
        omega
      rw [hpow, Nat.mul_left_comm, Nat.add_mul_div_left _ _ (Nat.two_pow_pos _), Nat.mul_left_comm, Nat.add_mul_mod_self_left]
      exact field_joinSubs w f hlt

/-- The sub-elements of WID 0 to 3 fill the lane exactly. -/
theorem subWidth_fills {wid : Nat} (h : wid ≤ 3) : 0 < subWidth wid ∧ 32 / subWidth wid = 2 ^ wid ∧ subWidth wid * 2 ^ wid = 32 := by
  have hall : ∀ v < 4, 0 < subWidth v ∧ 32 / subWidth v = 2 ^ v ∧ subWidth v * 2 ^ v = 32 := by decide
  exact hall wid (Nat.lt_succ_of_le h)

theorem subElem_subWord {wid j : Nat} (f : Nat → Nat) (h : wid ≤ 3) (hj : j < 2 ^ wid) :
    subElem (subWidth wid) (subWord (subWidth wid) f) j = f j % 2 ^ subWidth wid := by
  obtain ⟨-, hcount, hfull⟩ := subWidth_fills h
  have hlt : joinSubs (subWidth wid) f (2 ^ wid) < 2 ^ 32 := hfull ▸ joinSubs_lt (subWidth wid) f (2 ^ wid)
  rw [subElem, subWord, hcount, BitVec.toNat_ofNat, Nat.mod_eq_of_lt hlt]
  exact field_joinSubs _ _ hj

/-! ### Reading, clamping and reducing -/

theorem subElem_lt (w : Nat) (x : Word) (j : Nat) : subElem w x j < 2 ^ w := Nat.mod_lt _ (Nat.two_pow_pos w)

/-- Two's complement takes `2 ^ w` off a sub-element whose top bit is set. -/
theorem readSub_exact {signed : Bool} {w u : Nat} (hw : 0 < w) (hu : u < 2 ^ w) :
    readSub signed w u = if signed = true ∧ 2 ^ (w - 1) ≤ u then (u : Int) - 2 ^ w else (u : Int) := by
  have htop : 2 ^ (w - 1) ≤ u ↔ ¬2 * u < 2 ^ w := by
    rw [← Nat.two_pow_pred_mul_two hw]
    omega
  cases signed with
  | false => rfl
  | true => simp only [readSub, if_true, signedOf_of_lt hu, htop, true_and, ite_not]

theorem clampInt_exact {x lo hi : Int} (h : lo ≤ hi) : clampInt x lo hi = max lo (min x hi) := by
  rw [clampInt]
  omega

theorem saturated_exact (sgn : Bool) (w : Nat) (x : Int) :
    saturated sgn w x = if sgn then max (-(2 ^ (w - 1))) (min x (2 ^ (w - 1) - 1)) else max 0 (min x (2 ^ w - 1)) := by
  have hhalf := Nat.two_pow_pos (w - 1)
  have hfull := Nat.two_pow_pos w
  rw [saturated, clampInt_exact (by omega), clampInt_exact (by omega)]
  simp only [Int.natCast_pow, Int.cast_ofNat_Int]

theorem wrapTo_mod (w : Nat) (x : Int) : wrapTo w x % 2 ^ w = (x % 2 ^ w).toNat := by
  have hpos : (0 : Int) < (2 ^ w : Nat) := Int.natCast_pos.mpr (Nat.two_pow_pos w)
  have hlt : x % (2 ^ w : Nat) < (2 ^ w : Nat) := Int.emod_lt_of_pos _ hpos
  rw [wrapTo, Nat.mod_eq_of_lt (by omega), Int.natCast_pow]
  rfl

theorem wrapTo_natCast_of_lt {w u : Nat} (h : u < 2 ^ w) : wrapTo w u = u := by
  rw [wrapTo, ← Int.natCast_emod, Int.toNat_natCast, Nat.mod_eq_of_lt h]

/-! ### One lane -/

/-- R172: each sub-element that the lane function stores is the result that the statement gives for its position. -/
theorem subElem_intLane {h : HMod} {signed : Bool} {f : Nat → Int → Int → Int → Int} {a b d : Word} {j : Nat}
    (hwid : h.wid ≤ 3) (hj : j < 2 ^ h.wid) :
    subElem (subWidth h.wid) (intLane h signed f a b d) j = subResult h signed f a b d j := by
  obtain ⟨hw, -, -⟩ := subWidth_fills hwid
  simp only [intLane, subElem_subWord _ hwid hj, wrapTo_mod, saturated_exact, readSub_exact hw (subElem_lt _ _ _)]
  rfl

theorem subResult_congr {f g : Nat → Int → Int → Int → Int} (h : HMod) (signed : Bool) (a b d : Word) (j : Nat)
    (hfg : ∀ w x y z, f w x y z = g w x y z) : subResult h signed f a b d j = subResult h signed g a b d j := by
  simp only [subResult, hfg]

/-- Two effects give one unsigned result when they agree on the operands that an unsigned reading brings, which lie below `2 ^ w`. -/
theorem subResult_congr_of_unsigned {f g : Nat → Int → Int → Int → Int} (h : HMod) (a b d : Word) (j : Nat)
    (hfg : ∀ w x y : Nat, x < 2 ^ w → y < 2 ^ w → ∀ z, f w x y z = g w x y z) :
    subResult h false f a b d j = subResult h false g a b d j := by
  have hlt : ∀ u, u % 2 ^ (32 / 2 ^ h.wid) < 2 ^ (32 / 2 ^ h.wid) := fun u => Nat.mod_lt _ (Nat.two_pow_pos _)
  simp only [subResult, Bool.false_eq_true, false_and, if_false, hfg _ _ _ (hlt _) (hlt _)]

/-- An effect of `a` alone reads nothing of operand b. -/
theorem subResult_unary (u : Nat → Int → Int) (h : HMod) (signed : Bool) (a b b' d : Word) (j : Nat) :
    subResult h signed (fun w x _ _ => u w x) a b d j = subResult h signed (fun w x _ _ => u w x) a b' d j := rfl

/-! ### Effects that the model computes by a function of its own -/

/-- The shift count of an unsigned sub-element is its value modulo `w` (R173). -/
theorem two_pow_subShift {w y : Nat} (h : y < 2 ^ w) : ((2 ^ subShift w y : Nat) : Int) = 2 ^ (y % w) := by
  rw [subShift, wrapTo_natCast_of_lt h]
  exact Int.natCast_pow 2 _

/-- The leading zeros of a sub-element stand above its highest one bit, which is that of its logarithm. -/
theorem leadingZeros_exact {w x : Nat} (h : x < 2 ^ w) :
    (leadingZeros x.testBit w : Int) = if (x : Int) = 0 then (w : Int) else (w : Int) - 1 - (Nat.log2 x : Nat) := by
  have hle := leadingZeros_le x.testBit w
  obtain ⟨hlt, hge⟩ := leadingZeros_bounds h
  by_cases hz : leadingZeros x.testBit w = w
  · have hx : x = 0 := by rwa [hz, Nat.sub_self, Nat.pow_zero, Nat.lt_one_iff] at hlt
    rw [if_pos (Int.natCast_eq_zero.mpr hx), hz]
  · have hbit := hge (Nat.lt_of_le_of_ne hle hz)
    have hx : x ≠ 0 := Nat.ne_of_gt (Nat.lt_of_lt_of_le (Nat.two_pow_pos _) hbit)
    have hlog : Nat.log2 x = w - 1 - leadingZeros x.testBit w := by
      refine (Nat.log2_eq_iff hx).mpr ⟨hbit, ?_⟩
      rwa [show w - 1 - leadingZeros x.testBit w + 1 = w - leadingZeros x.testBit w by omega]
    rw [if_neg (mt Int.natCast_eq_zero.mp hx), hlog]
    omega

end Sys2Proof.Machine
end

section
/-! PROOF. The instructions that act on each sub-element complete with the results of R172 and R173. -/

namespace Sys2Proof.Machine

/-- The instruction of a row of the table of lane forms completes, and writes the result of that row in each sub-element (R172). -/
def LaneRowCompletes
    (r : (BitVec 7 → BitVec 7 → BitVec 7 → BitVec 1 → Instr) × (HMod → Bool) × (Nat → Int → Int → Int → Int)) : Prop :=
  ∀ (s : State) (J : Issue) (d a b : BitVec 7) (ib : BitVec 1), J.h.m.wid ≤ 3 → Begins (r.1 d a b ib) s J →
    ∃ x : Lanes, Completes (r.1 d a b ib) s J { st := J.put (J.warp.writeV d.toNat J.mask x) } ∧
      ∀ L < 32, ∀ j < 2 ^ J.h.m.wid,
        subElem (subWidth J.h.m.wid) (lane x L) j =
          subResult J.h.m (r.2.1 J.h.m) r.2.2 (lane (J.va a) L) (lane (J.vb b ib) L) (lane (J.vd d) L) j

section
variable {mk : BitVec 7 → BitVec 7 → BitVec 7 → BitVec 1 → Instr} {sg : HMod → Bool} {f g : Nat → Int → Int → Int → Int}

/-- A form whose meaning is a lane body completes with the effect of its lane function. -/
theorem laneRowCompletes_of_body (F : LaneFn) (hF : ∀ h, F h = intLane h (sg h) f)
    (hx : ∀ d a b ib s, exec (mk d a b ib) s = runInstr (mk d a b ib) (laneBody d a b ib F) s) : LaneRowCompletes (mk, sg, f) := by
  intro s J d a b ib hwid hb
  refine ⟨_, completes_of_body (hx d a b ib s) hb rfl, fun L hL j hj => ?_⟩
  rw [mapLanes, lane_perLane _ hL, hF, subElem_intLane hwid hj]

/-- A unary form completes with an effect of `a` alone, so that it does not matter what stands for operand b. -/
theorem laneRowCompletes_of_unary {mk : BitVec 7 → BitVec 7 → Instr} {u : Nat → Int → Int} (F : LaneFn)
    (hF : ∀ h, F h = intLane h (sg h) (fun w x _ _ => u w x))
    (hx : ∀ d a s, exec (mk d a) s = runInstr (mk d a) (laneUnary d a F) s) :
    LaneRowCompletes (fun d a _ _ => mk d a, sg, fun w x _ _ => u w x) := by
  intro s J d a b ib hwid hb
  refine ⟨_, completes_of_body (hx d a s) hb rfl, fun L hL j hj => ?_⟩
  rw [mapLanes, lane_perLane _ hL, hF, subElem_intLane hwid hj, subResult_unary u _ _ _ _ (lane (J.vb b ib) L)]

/-- The row may state another effect that gives the same results. -/
theorem LaneRowCompletes.congr (hrow : LaneRowCompletes (mk, sg, f))
    (hfg : ∀ h a b d j, subResult h (sg h) f a b d j = subResult h (sg h) g a b d j) : LaneRowCompletes (mk, sg, g) := by
  intro s J d a b ib hwid hb
  obtain ⟨x, hdone, hsub⟩ := hrow s J d a b ib hwid hb
  exact ⟨x, hdone, fun L hL j hj => (hsub L hL j hj).trans (hfg _ _ _ _ _)⟩

end

theorem laneTable_completes : ∀ r ∈ laneTable, LaneRowCompletes r := by
  simp only [laneTable, List.forall_mem_cons]
  refine ⟨?vadd, ?vavg, ?vsub, ?vmul, ?vmulhi, ?vmulhu, ?vmad, ?vand, ?vor, ?vxor, ?vandn, ?vshl, ?vshr, ?vsra, ?vmin, ?vmax, ?vminu,
    ?vmaxu, ?vabsd, ?vmov, ?vclz, ?vpopc, List.forall_mem_nil _⟩
  case vadd => exact laneRowCompletes_of_body vaddV (fun _ => rfl) (fun _ _ _ _ _ => rfl)
  case vavg => exact laneRowCompletes_of_body vavgV (fun _ => rfl) (fun _ _ _ _ _ => rfl)
  case vsub => exact laneRowCompletes_of_body vsubV (fun _ => rfl) (fun _ _ _ _ _ => rfl)
  case vmul => exact laneRowCompletes_of_body vmulV (fun _ => rfl) (fun _ _ _ _ _ => rfl)
  case vmulhi =>
    exact LaneRowCompletes.congr (laneRowCompletes_of_body vmulhiV (fun _ => rfl) (fun _ _ _ _ _ => rfl))
      (fun h a b d j => subResult_congr h _ a b d j (fun w x y _ => congrArg (x * y / ·) (Int.natCast_pow 2 w)))
  case vmulhu =>
    exact LaneRowCompletes.congr (laneRowCompletes_of_body vmulhuV (fun _ => rfl) (fun _ _ _ _ _ => rfl))
      (fun h a b d j => subResult_congr h _ a b d j (fun w x y _ => congrArg (x * y / ·) (Int.natCast_pow 2 w)))
  case vmad => exact laneRowCompletes_of_body vmadV (fun _ => rfl) (fun _ _ _ _ _ => rfl)
  case vand => exact laneRowCompletes_of_body vandV (fun _ => rfl) (fun _ _ _ _ _ => rfl)
  case vor => exact laneRowCompletes_of_body vorV (fun _ => rfl) (fun _ _ _ _ _ => rfl)
  case vxor => exact laneRowCompletes_of_body vxorV (fun _ => rfl) (fun _ _ _ _ _ => rfl)
  case vandn => exact laneRowCompletes_of_body vandnV (fun _ => rfl) (fun _ _ _ _ _ => rfl)
  case vshl =>
    exact LaneRowCompletes.congr (laneRowCompletes_of_body vshlV (fun _ => rfl) (fun _ _ _ _ _ => rfl))
      (fun h a b d j => subResult_congr_of_unsigned h a b d j (fun _ x _ _ hy _ => congrArg ((x : Int) * ·) (two_pow_subShift hy)))
  case vshr =>
    exact LaneRowCompletes.congr (laneRowCompletes_of_body vshrV (fun _ => rfl) (fun _ _ _ _ _ => rfl))
      (fun h a b d j => subResult_congr_of_unsigned h a b d j (fun _ x _ _ hy _ => congrArg ((x : Int) / ·) (two_pow_subShift hy)))
  case vsra =>
    exact LaneRowCompletes.congr (laneRowCompletes_of_body vsraV (fun _ => rfl) (fun _ _ _ _ _ => rfl))
      (fun h a b d j => subResult_congr h _ a b d j (fun w x y _ => congrArg (x / ·) (Int.natCast_pow 2 (subShift w y))))
  case vmin => exact laneRowCompletes_of_body vminV (fun _ => rfl) (fun _ _ _ _ _ => rfl)
  case vmax => exact laneRowCompletes_of_body vmaxV (fun _ => rfl) (fun _ _ _ _ _ => rfl)
  case vminu => exact laneRowCompletes_of_body vminuV (fun _ => rfl) (fun _ _ _ _ _ => rfl)
  case vmaxu => exact laneRowCompletes_of_body vmaxuV (fun _ => rfl) (fun _ _ _ _ _ => rfl)
  case vabsd => exact laneRowCompletes_of_body vabsdV (fun _ => rfl) (fun _ _ _ _ _ => rfl)
  case vmov => exact laneRowCompletes_of_unary vmovV (fun _ => rfl) (fun _ _ _ => rfl)
  case vclz =>
    exact LaneRowCompletes.congr (laneRowCompletes_of_unary vclzV (fun _ => rfl) (fun _ _ _ => rfl))
      (fun h a b d j => subResult_congr_of_unsigned h a b d j (fun _ _ _ hx _ _ => leadingZeros_exact hx))
  case vpopc =>
    exact LaneRowCompletes.congr (laneRowCompletes_of_unary vpopcV (fun _ => rfl) (fun _ _ _ => rfl))
      (fun h a b d j => subResult_congr_of_unsigned h a b d j (fun w x _ _ _ _ => congrArg Nat.cast (onesBelow_eq_countP x.testBit w)))

end Sys2Proof.Machine

open Sys2Proof Sys2Proof.Machine

/-- Settles O8: each form completes with its lane function in every lane, whose sub-elements are the exact results of R172 and R173,
clamped with SAT, modulo `2 ^ w`. -/
theorem laneResults : Obligations.LaneResults := by
  unfold Obligations.LaneResults
  exact laneTable_completes

end

section
/-! PROOF. The lanes of a mask: the lowest, those below a lane, and the bits that a mask register gets (R175, R197, R199). -/

namespace Sys2Proof.Machine

/-! ### The lanes of a mask -/

theorem lowestLane_eq_find? (m : Word) : lowestLane m = ((List.range 32).find? m.getLsbD).getD 32 := by
  rw [lowestLane, lanesOf, List.head?_filter]

theorem lowestLane_spec (m : Word) :
    lowestLane m ≤ 32 ∧ (∀ n < lowestLane m, m.getLsbD n = false) ∧ (lowestLane m < 32 → m.getLsbD (lowestLane m) = true) := by
  rw [lowestLane_eq_find?]
  cases hfind : (List.range 32).find? m.getLsbD with
  | none =>
    have hclear := List.find?_range_eq_none.mp hfind
    exact ⟨Nat.le_refl 32, fun n hn => Bool.not_eq_true' _ ▸ hclear n hn, fun h => absurd h (Nat.lt_irrefl 32)⟩
  | some n =>
    obtain ⟨hbit, hmem, hclear⟩ := List.find?_range_eq_some.mp hfind
    exact ⟨Nat.le_of_lt (List.mem_range.mp hmem), fun i hi => Bool.not_eq_true' _ ▸ hclear i hi, fun _ => hbit⟩

theorem eq_lowestLane_iff {m : Word} {L : Nat} (hL : L < 32) :
    L = lowestLane m ↔ m.getLsbD L = true ∧ ∀ M < L, m.getLsbD M = false := by
  obtain ⟨-, hclear, hbit⟩ := lowestLane_spec m
  constructor
  · rintro rfl
    exact ⟨hbit hL, hclear⟩
  · rintro ⟨hset, hbelow⟩
    rcases Nat.lt_trichotomy L (lowestLane m) with hlt | heq | hgt
    · exact absurd hset (Bool.not_eq_true _ ▸ hclear L hlt)
    · exact heq
    · exact absurd (hbit (Nat.lt_trans hgt hL)) (Bool.not_eq_true _ ▸ hbelow _ hgt)

theorem lanesBefore_all (m : Word) : lanesBefore m 32 false = lanesOf m := by
  refine List.filter_congr (fun M hM => ?_)
  rw [decide_eq_true (List.mem_range.mp hM), Bool.true_or, Bool.and_true]

/-- The lanes of G below a lane are as many as the ones of its mask there. -/
theorem length_lanesBefore (m : Word) {L : Nat} (hL : L ≤ 32) : (lanesBefore m L false).length = onesBelow m.getLsbD L := by
  have hbelow : (List.range 32).filter (fun M => decide (M < L)) = List.range L := by
    obtain ⟨k, hk⟩ := Nat.exists_eq_add_of_le hL
    have hkept : ∀ M ∈ List.range L, decide (M < L) = true := fun M hM => decide_eq_true (List.mem_range.mp hM)
    have hdropped : ∀ M ∈ (List.range k).map (L + ·), ¬decide (M < L) = true := fun M hM h => by
      obtain ⟨n, -, rfl⟩ := List.mem_map.mp hM
      exact absurd (of_decide_eq_true h) (Nat.not_lt_of_le (Nat.le_add_right L n))
    rw [hk, List.range_add, List.filter_append, List.filter_eq_self.mpr hkept, List.filter_eq_nil_iff.mpr hdropped, List.append_nil]
  simp only [lanesBefore, Bool.false_and, Bool.or_false]
  rw [← List.filter_filter, hbelow, ← List.countP_eq_length_filter, onesBelow_eq_countP]

/-! ### The bits of a mask register -/

section
variable {J : Issue} {L : Nat}

theorem Issue.active_of_mask (h : J.mask.getLsbD L = true) : J.active.getLsbD L = true := by
  rw [Issue.mask] at h
  split at h
  · exact h
  · exact (Bool.and_eq_true_iff.mp ((BitVec.getLsbD_and ..).symm.trans h)).1

theorem Issue.getLsbD_maskBits (k : BitVec 3) (bits : Word) (hL : L < 32) :
    (J.maskBits k bits).getLsbD L =
      ((J.warp.getK k.toNat).getLsbD L && !J.active.getLsbD L || bits.getLsbD L && J.mask.getLsbD L) := by
  rw [Issue.maskBits, BitVec.getLsbD_or, BitVec.getLsbD_and, BitVec.getLsbD_and, BitVec.getLsbD_not, decide_eq_true hL, Bool.true_and]

theorem Issue.maskBits_outside (k : BitVec 3) (bits : Word) (hL : L < 32) (h : J.active.getLsbD L = false) :
    (J.maskBits k bits).getLsbD L = (J.warp.getK k.toNat).getLsbD L := by
  have hmask : J.mask.getLsbD L = false :=
    Bool.eq_false_iff.mpr (fun hm => Bool.noConfusion (h.symm.trans (Issue.active_of_mask hm)))
  rw [Issue.getLsbD_maskBits k bits hL, h, hmask, Bool.and_false, Bool.or_false, Bool.not_false, Bool.and_true]

theorem Issue.maskBits_active (k : BitVec 3) (bits : Word) (hL : L < 32) (h : J.active.getLsbD L = true) :
    (J.maskBits k bits).getLsbD L = true ↔ J.mask.getLsbD L = true ∧ bits.getLsbD L = true := by
  rw [Issue.getLsbD_maskBits k bits hL, h, Bool.not_true, Bool.and_false, Bool.false_or, Bool.and_eq_true_iff, and_comm]

end

end Sys2Proof.Machine
end

section
/-! PROOF. Fields of joined numbers: the bytes that a permute selects (R195) and the bits of a packed stream (R202 to R204). -/

namespace Sys2Proof.Machine

/-! ### Fields of two numbers side by side -/

theorem field_of_low {x y lo n k : Nat} (h : lo + n ≤ k) : field (x + y * 2 ^ k) lo n = field x lo n := by
  obtain ⟨c, rfl⟩ := Nat.exists_eq_add_of_le h
  have hpow : y * 2 ^ (lo + n + c) = 2 ^ lo * (2 ^ n * (2 ^ c * y)) := by
    rw [Nat.pow_add, Nat.pow_add, Nat.mul_comm, Nat.mul_assoc, Nat.mul_assoc]
  rw [field, hpow, Nat.add_mul_div_left _ _ (Nat.two_pow_pos lo), Nat.add_mul_mod_self_left, field]

theorem field_of_high {x y lo n k : Nat} (hx : x < 2 ^ k) (h : k ≤ lo) : field (x + y * 2 ^ k) lo n = field y (lo - k) n := by
  rw [field, ← Nat.add_sub_cancel' h, Nat.pow_add, ← Nat.div_div_eq_div_mul, Nat.add_mul_div_right _ _ (Nat.two_pow_pos k),
    Nat.div_eq_of_lt hx, Nat.zero_add, Nat.add_sub_cancel_left, field]

/-- A byte of a permuted lane, by the nibble of its control (R195). -/
theorem subElem_permBytes (ctl a b : Word) {i : Nat} (hi : i < 4) :
    subElem 8 (permBytes ctl a b) i =
      (let c := field ctl.toNat (4 * i) 4
       if c < 4 then subElem 8 a c else if c < 8 then subElem 8 b (c - 4) else 0) := by
  extract_lets c
  have hsub : subElem 8 (permBytes ctl a b) i = (if c < 8 then field (a.toNat + b.toNat * 2 ^ 32) (8 * c) 8 else 0) % 2 ^ 8 :=
    subElem_subWord (wid := 2) _ (by decide) hi
  rw [hsub]
  by_cases h4 : c < 4
  · rw [if_pos h4, if_pos (by omega), field_of_low (by omega), ← subElem, Nat.mod_eq_of_lt (subElem_lt ..)]
  · rw [if_neg h4]
    split
    · rw [field_of_high a.isLt (by omega), show 8 * c - 32 = 8 * (c - 4) by omega, ← subElem, Nat.mod_eq_of_lt (subElem_lt ..)]
    · rfl

/-! ### Bits of a stream -/

theorem testBit_field (x lo n i : Nat) : (field x lo n).testBit i = (decide (i < n) && x.testBit (lo + i)) := by
  rw [field, Nat.testBit_mod_two_pow, Nat.testBit_div_two_pow, Nat.add_comm]

theorem testBit_joinSubs {w n j i : Nat} (f : Nat → Nat) (hj : j < n) (hi : i < w) :
    (joinSubs w f n).testBit (w * j + i) = (f j).testBit i := by
  have h := congrArg (Nat.testBit · i) (field_joinSubs w f hj)
  simpa only [testBit_field, Nat.testBit_mod_two_pow, decide_eq_true hi, Bool.true_and] using h

/-- The bits of words in a row, by the number of the word and the bit in it. -/
theorem testBit_joinSubs_words {n t : Nat} (f : Nat → Word) (ht : t < 32 * n) :
    (joinSubs 32 (fun j => (f j).toNat) n).testBit t = (f (t / 32)).getLsbD (t % 32) := by
  have h := testBit_joinSubs (fun j => (f j).toNat) (Nat.div_lt_of_lt_mul ht) (Nat.mod_lt t (by decide : 0 < 32))
  rwa [Nat.div_add_mod] at h

theorem getLsbD_word_of_stream (x q r : Nat) (hr : r < 32) :
    (BitVec.ofNat 32 (field x (32 * q) 32)).getLsbD r = x.testBit (32 * q + r) := by
  rw [BitVec.getLsbD_ofNat, testBit_field, decide_eq_true hr, Bool.true_and, Bool.true_and]

theorem signedOf_eq_toInt (w x : Nat) : signedOf w x = (BitVec.ofNat w x).toInt := by
  rw [BitVec.toInt, BitVec.toNat_ofNat, Int.natCast_pow]
  rfl

/-- Past its own bits, a code extended to a word repeats its top bit, or zero. -/
theorem getLsbD_extended {w x i : Nat} (hw : 0 < w) (hi : i < 32) (hx : x < 2 ^ w) (sgn : Bool) :
    (BitVec.ofNat 32 (if sgn then wrapTo 32 (signedOf w x) else x)).getLsbD i =
      if i < w then x.testBit i else sgn && x.testBit (w - 1) := by
  cases sgn with
  | false =>
    rw [if_neg Bool.false_ne_true, BitVec.getLsbD_ofNat, decide_eq_true hi, Bool.true_and, Bool.false_and]
    split
    · rfl
    · exact Nat.testBit_lt_two_pow (Nat.lt_of_lt_of_le hx (Nat.pow_le_pow_right (by decide) (Nat.le_of_not_lt ‹_›)))
  | true =>
    rw [if_pos rfl, wrapTo_exact, signedOf_eq_toInt, ← BitVec.signExtend, BitVec.getLsbD_signExtend, BitVec.msb_eq_getLsbD_last,
      decide_eq_true hi]
    simp only [BitVec.getLsbD_ofNat, Bool.true_and]
    split
    · rw [decide_eq_true ‹_›, Bool.true_and]
    · rw [decide_eq_true (Nat.sub_one_lt_of_lt hw), Bool.true_and]

end Sys2Proof.Machine
end

section
/-! PROOF. Crossings (R194 to R197): each form completes, and what it leaves in each lane. -/

namespace Sys2Proof.Machine

section
variable {s : State} {J : Issue} {d a b : BitVec 7} {ib : BitVec 1} {k : BitVec 3} {cc : BitVec 4}

theorem vshfl_completes (hb : Begins (.vshfl d a b ib) s J) : ∃ x : Lanes,
    Completes (.vshfl d a b ib) s J { st := J.put (J.warp.writeV d.toNat J.mask x) } ∧
    ∀ L < 32, lane x L = lane (J.va a) ((lane (J.vb b ib) L).toNat % 32) :=
  ⟨_, completes_of_body rfl hb rfl, fun _ hL => lane_perLane _ hL⟩

theorem vperm_completes (hb : Begins (.vperm d a b) s J) : ∃ x : Lanes,
    Completes (.vperm d a b) s J { st := J.put (J.warp.writeV d.toNat J.mask x) } ∧
    ∀ L < 32, ∀ i < 4,
      let c := field (lane (J.vd d) L).toNat (4 * i) 4
      subElem 8 (lane x L) i =
        if c < 4 then subElem 8 (lane (J.va a) L) c else if c < 8 then subElem 8 (lane (J.vr b) L) (c - 4) else 0 := by
  refine ⟨_, completes_of_body rfl hb rfl, fun L hL i hi => ?_⟩
  rw [mapLanes, lane_perLane _ hL]
  exact subElem_permBytes _ _ _ hi

theorem vmatch_completes (hb : Begins (.vmatch k a d) s J) : ∃ (x : Lanes) (y : Word),
    let key := fun L => matchKey J.h.m (lane (J.va a) L)
    Completes (.vmatch k a d) s J { st := J.put ((J.warp.writeV d.toNat J.mask x).setK k.toNat y) } ∧
    ∀ L < 32, (∀ M < 32, (lane x L).getLsbD M = (J.mask.getLsbD M && decide (key M = key L))) ∧
      (J.active.getLsbD L = false → y.getLsbD L = (J.warp.getK k.toNat).getLsbD L) ∧
      (J.active.getLsbD L = true →
        (y.getLsbD L = true ↔ J.mask.getLsbD L = true ∧ ∀ M < L, J.mask.getLsbD M = true → key M ≠ key L)) := by
  refine ⟨_, _, completes_of_body rfl hb rfl, fun L hL => ⟨fun M hM => ?equal, Issue.maskBits_outside k _ hL, fun ha => ?first⟩⟩
  case equal =>
    rw [lane_perLane _ hL, getLsbD_maskOf, decide_eq_true hM, Bool.true_and]
    rfl
  case first =>
    rw [Issue.maskBits_active k _ hL ha, getLsbD_maskOf, decide_eq_true hL, Bool.true_and, List.all_eq_true]
    simp only [List.mem_range, Bool.not_eq_true', Bool.and_eq_false_imp, beq_eq_false_iff_ne]

theorem vballot_completes (hb : Begins (.vballot k cc a b ib) s J) : ∃ x : Word,
    Completes (.vballot k cc a b ib) s J { st := J.put (J.warp.setK k.toNat x) } ∧
    ∀ L < 32, x.getLsbD L = (J.mask.getLsbD L && intCond cc.toNat (lane (J.va a) L) (lane (J.vb b ib) L)) :=
  ⟨_, completes_of_body rfl hb rfl, fun L hL => by rw [getLsbD_maskOf, decide_eq_true hL, Bool.true_and]⟩

theorem getLsbD_ite_allOnes {L : Nat} (hL : L < 32) (c : Bool) : (if c then (0xFFFFFFFF : Word) else 0).getLsbD L = c := by
  cases c
  · exact BitVec.getLsbD_zero
  · exact (BitVec.getLsbD_allOnes (v := 32)).trans (decide_eq_true hL)

theorem vvote_completes (hb : Begins (.vvote k cc a b ib) s J) : ∃ x : Word,
    Completes (.vvote k cc a b ib) s J { st := J.put (J.warp.setK k.toNat x) } ∧
    ∀ L < 32, (J.active.getLsbD L = false → x.getLsbD L = (J.warp.getK k.toNat).getLsbD L) ∧
      (J.active.getLsbD L = true → (x.getLsbD L = true ↔ J.mask.getLsbD L = true ∧
        ∀ M < 32, J.mask.getLsbD M = true → intCond cc.toNat (lane (J.va a) M) (lane (J.vb b ib) M) = true)) := by
  refine ⟨_, completes_of_body rfl hb rfl, fun L hL => ⟨Issue.maskBits_outside k _ hL, fun ha => ?_⟩⟩
  rw [Issue.maskBits_active k _ hL ha]
  refine and_congr_right (fun _ => ?_)
  rw [getLsbD_ite_allOnes hL, List.all_eq_true]
  simp only [Issue.lanes, lanesOf, List.mem_filter, List.mem_range, and_imp]

theorem velect_completes (hb : Begins (.velect k) s J) : ∃ x : Word,
    Completes (.velect k) s J { st := J.put (J.warp.setK k.toNat x) } ∧
    ∀ L < 32, (J.active.getLsbD L = false → x.getLsbD L = (J.warp.getK k.toNat).getLsbD L) ∧
      (J.active.getLsbD L = true → (x.getLsbD L = true ↔ J.mask.getLsbD L = true ∧ ∀ M < L, J.mask.getLsbD M = false)) := by
  refine ⟨_, completes_of_body rfl hb rfl, fun L hL => ⟨Issue.maskBits_outside k _ hL, fun ha => ?_⟩⟩
  rw [Issue.maskBits_active k _ hL ha, getLsbD_maskOf, decide_eq_true hL, Bool.true_and, beq_iff_eq, eq_lowestLane_iff hL]
  exact and_iff_right_of_imp And.left

end
end Sys2Proof.Machine

open Sys2Proof Sys2Proof.Machine

/-- Settles O14: every form completes with the lanes or the mask bits that R194 to R197 give. -/
theorem crossingsByLane : Obligations.CrossingsByLane := by
  unfold Obligations.CrossingsByLane
  intro s J d a b ib k cc keep holds key
  exact ⟨vshfl_completes, vperm_completes, vmatch_completes, vballot_completes, vvote_completes, velect_completes⟩

end

section
/-! PROOF. Lane masks, packing, compression and expansion (R198, R199, R202 to R206): each form completes, and what it leaves. -/

namespace Sys2Proof.Machine

/-! ### Lane masks (R198, R199) -/

section
variable {s : State} {J : Issue} {t : BitVec 6} {a : BitVec 3}

theorem kcnt_completes (hb : Begins (.kcnt t a) s J) : Completes (.kcnt t a) s J
    { st := J.put (J.warp.setS t.toNat (BitVec.ofNat 32 ((List.range 32).countP (J.view.getK a.toNat).getLsbD))) } :=
  completes_of_body rfl hb (by rw [Issue.scalar, Issue.kv, popCount, onesBelow_eq_countP])

theorem kfirst_completes (hb : Begins (.kfirst t a) s J) :
    let x := J.view.getK a.toNat
    ∃ n, Completes (.kfirst t a) s J { st := J.put (J.warp.setS t.toNat (BitVec.ofNat 32 n)) } ∧
      n ≤ 32 ∧ (∀ m < n, x.getLsbD m = false) ∧ (n < 32 → x.getLsbD n = true) :=
  ⟨lowestLane (J.view.getK a.toNat), completes_of_body rfl hb rfl, lowestLane_spec _⟩

end

/-! ### Packing (R202 to R204) -/

/-- A pack to elements of `r.1` bits completes with the stream of R203 in its lanes of the destination. -/
def PackCompletes (s : State) (J : Issue) (d a p : BitVec 7) (r : Nat × Instr) : Prop :=
  Begins r.2 s J → ∃ (x : Lanes) (m : Word),
    Completes r.2 s J { st := J.put (J.warp.writeV d.toNat m x) } ∧
    (∀ L < 32, m.getLsbD L = (decide (p.toNat ≤ L) && decide (L < p.toNat + r.1))) ∧
    ∀ L < 32, p.toNat + r.1 ≤ 32 →
      let e := if J.mask.getLsbD L then packElem J.h.m r.1 (lane (J.va a) L) else 0
      ∀ i < r.1, (lane x (p.toNat + (r.1 * L + i) / 32)).getLsbD ((r.1 * L + i) % 32) = e.testBit i

section
variable {s : State} {J : Issue} {d a p : BitVec 7}

theorem packCompletes_of_body {i : Instr} {w : Nat} (hx : exec i s = runInstr i (packBody w d a p) s) :
    PackCompletes s J d a p (w, i) := by
  intro hb
  refine ⟨_, _, completes_of_body hx hb rfl, fun L hL => ?lanes, fun L hL hp => ?bits⟩
  case lanes => rw [getLsbD_maskOf, decide_eq_true hL, Bool.true_and]
  case bits =>
    intro e j hj
    have hlane : (w * L + j) / 32 < w := Nat.div_lt_of_lt_mul <|
      calc w * L + j < w * L + w := Nat.add_lt_add_left hj _
        _ = w * (L + 1) := (Nat.mul_succ w L).symm
        _ ≤ w * 32 := Nat.mul_le_mul_left w hL
        _ = 32 * w := Nat.mul_comm w 32
    rw [lane_perLane _ (Nat.lt_of_lt_of_le (Nat.add_lt_add_left hlane _) hp), Nat.add_sub_cancel_left,
      getLsbD_word_of_stream _ _ _ (Nat.mod_lt _ (by decide)), Nat.div_add_mod, testBit_joinSubs _ hL hj]

theorem packs_complete (s : State) (J : Issue) (d a p : BitVec 7) :
    ∀ r ∈ [(8, Instr.vpackb d a p), (4, Instr.vpackn d a p), (6, Instr.vpack6 d a p)], PackCompletes s J d a p r := by
  simp only [List.forall_mem_cons]
  exact ⟨packCompletes_of_body rfl, packCompletes_of_body rfl, packCompletes_of_body rfl, List.forall_mem_nil _⟩

theorem vunpk6_completes (hb : Begins (.vunpk6 d a p) s J) : ∃ x : Lanes,
    Completes (.vunpk6 d a p) s J { st := J.put (J.warp.writeV d.toNat J.mask x) } ∧
    ∀ L < 32, ∀ i < 32, (lane x L).getLsbD i =
      if i < 6 then (lane (J.va a) (p.toNat + (6 * L + i) / 32)).getLsbD ((6 * L + i) % 32)
      else J.h.m.sgn && (lane (J.va a) (p.toNat + (6 * L + 5) / 32)).getLsbD ((6 * L + 5) % 32) := by
  refine ⟨_, completes_of_body rfl hb rfl, fun L hL i hi => ?_⟩
  have hbit : ∀ j < 6, (field (joinSubs 32 (fun n => (lane (J.va a) (p.toNat + n)).toNat) 6) (6 * L) 6).testBit j =
      (lane (J.va a) (p.toNat + (6 * L + j) / 32)).getLsbD ((6 * L + j) % 32) := fun j hj => by
    rw [testBit_field, decide_eq_true hj, Bool.true_and, testBit_joinSubs_words (fun n => lane (J.va a) (p.toNat + n)) (by omega)]
  have hlt : field (joinSubs 32 (fun n => (lane (J.va a) (p.toNat + n)).toNat) 6) (6 * L) 6 < 2 ^ 6 := Nat.mod_lt _ (by decide)
  rw [lane_perLane _ hL, ← hbit 5 (by decide)]
  refine (getLsbD_extended (by decide) hi hlt _).trans ?_
  split
  · rename_i h6
    exact hbit i h6
  · rfl

/-! ### Compression and expansion (R205, R206) -/

theorem vcmpr_completes (hb : Begins (.vcmpr d a) s J) : ∃ x : Lanes,
    Completes (.vcmpr d a) s J { st := J.put (J.warp.putV d.toNat x) } ∧
    ∀ L < 32,
      let g := lanesBefore J.mask 32 false
      let half := fun n => ((g[n]?).map (fun M => toBf16 (lane (J.va a) M))).getD 0
      lane x L = if J.h.m.wid = 0 then ((g[L]?).map (lane (J.va a))).getD 0
        else BitVec.ofNat 32 (half (2 * L) + half (2 * L + 1) * 2 ^ 16) := by
  refine ⟨_, completes_of_body rfl hb rfl, fun L hL => ?_⟩
  rw [lane_perLane _ hL, lanesBefore_all]
  simp only [List.getD_eq_getElem?_getD, List.getElem?_map, Issue.lanes]
  by_cases hw : J.h.m.wid = 0
  · simp only [hw, if_true]
    cases (lanesOf J.mask)[L]? with
    | none => rfl
    | some M => exact BitVec.ofNat_toNat .. |>.trans (BitVec.setWidth_eq _)
  · simp only [hw, if_false]

theorem vxpnd_completes (hb : Begins (.vxpnd d a) s J) : ∃ x : Lanes,
    Completes (.vxpnd d a) s J { st := J.put (J.warp.writeV d.toNat J.mask x) } ∧
    ∀ L < 32,
      let n := (lanesBefore J.mask L false).length
      lane x L = if J.h.m.wid = 0 then lane (J.va a) n
        else BitVec.ofNat 32 (field (lane (J.va a) (n / 2)).toNat (16 * (n % 2)) 16 * 2 ^ 16) :=
  ⟨_, completes_of_body rfl hb rfl, fun L hL => by rw [length_lanesBefore _ (Nat.le_of_lt hL), lane_perLane _ hL]⟩

end

end Sys2Proof.Machine

open Sys2Proof Sys2Proof.Machine

/-- Settles O16: the mask forms write what their bodies compute of whole registers, and each packing form completes with the lanes
that R203 to R206 give. -/
theorem masksAndPacking : Obligations.MasksAndPacking := by
  unfold Obligations.MasksAndPacking
  constructor
  · intro s J d a b t x y
    refine ⟨?kand, ?kor, ?kxor, ?knot, ?kmov, kcnt_completes, kfirst_completes, ?ktos, ?stok⟩
    all_goals exact fun hb => completes_of_body rfl hb rfl
  · intro s J d a p
    exact ⟨packs_complete s J d a p, vunpk6_completes, vcmpr_completes, vxpnd_completes⟩

end
